-- ==== Sys2Proof/Word.lean ====
section
/-! DEFINITION. The value types of the lineOfLife display core (`00_scope.md` R12, R13). All quantities are unsigned. -/

namespace Sys2Proof

/-- `u8`: a command, payload or response byte. -/
abbrev Byte := BitVec 8

/-- `u16`: a Register Bank value. -/
abbrev Half := BitVec 16

/-- `u4`: an opcode, an immediate, the four motor pins. -/
abbrev Nibble := BitVec 4

/-- A pixel column: its bits in LED-index order, LED 0 ("first LED") first (R13). A column of the machine has
`VERTICAL_PIXELS` of them; `GoodState` (Safety.lean) says so, and every step keeps it. -/
abbrev Col := List Bool

end Sys2Proof
end

