-- ==== Sys2Proof/Config.lean ====
section
/-! DEFINITION. The configuration record of `00_scope.md` R6, its constraints, the reference configuration `REF`
(R7), and the free values (`draw(T)`, R14). A `Config` is a record together with the fact that it meets the
constraints, so no configuration that violates one has a meaning. -/

namespace Sys2Proof

/-- `DIR_DELTA`: +1 or -1 (R6, `42_stepper_sequencer.md` R172). -/
inductive Direction where
  | plusOne
  | minusOne
deriving DecidableEq, Repr

/-- `OPC`: command name to opcode nibble (`30_encoding.md` R94). -/
structure Opc where
  noOp        : Nibble
  pushLine    : Nibble
  flushBuffer : Nibble
  clearBuffer : Nibble
  regRead     : Nibble
  regWrite    : Nibble
  ping        : Nibble
deriving DecidableEq, Repr

/-- The seven assigned nibbles, in the document's order of the commands. -/
def Opc.assigned (o : Opc) : List Nibble :=
  [o.noOp, o.pushLine, o.flushBuffer, o.clearBuffer, o.regRead, o.regWrite, o.ping]

/-- The default of R94: 0x0 to 0x6 in list order (the spec's decision D1, log 2). -/
def Opc.inListOrder : Opc :=
  { noOp := 0x0, pushLine := 0x1, flushBuffer := 0x2, clearBuffer := 0x3, regRead := 0x4, regWrite := 0x5,
    ping := 0x6 }

/-- The named parameters of R6, not yet checked against its constraints. -/
structure RawConfig where
  /-- VERTICAL_PIXELS -/
  vp : Nat
  /-- HORIZONTAL_PIXELS -/
  hp : Nat
  /-- DISPLAY_RPM -/
  rpm : Nat
  /-- ROTATION_STEPS -/
  rs : Nat
  /-- DISPLAY_BUFFER_LENGTH -/
  cap : Nat
  /-- PIXEL_FRACTION -/
  pf : Nat
  /-- STEPS_PER_PIXEL_FRACTION(1) -/
  spf : Nat
  dirDelta : Direction
  /-- MOTOR_STATES: the 8 pin patterns pin3, pin2, pin1, pin0, by phase -/
  motorStates : List Nibble
  /-- AUTOMATA_FRAMES -/
  af : Nat
  /-- AUTOMATA_MIN_FRAMES -/
  amf : Nat
  opc : Opc
  dutyMax : Half
  aspectMin : Half
  aspectMax : Half
  aspectReset : Half
  dutyReset : Half
  idleColumns : Nat
deriving DecidableEq, Repr

/-- R6: VP is a multiple of 8 with 8 <= VP <= 65535; HP and RPM fit their 16-bit registers and are not zero. -/
def RawConfig.geometryOk (c : RawConfig) : Bool :=
  decide (c.vp % 8 = 0 ∧ 8 ≤ c.vp ∧ c.vp ≤ 65535 ∧ 1 ≤ c.hp ∧ c.hp ≤ 65535 ∧ 1 ≤ c.rpm ∧ c.rpm ≤ 65535)

/-- R6: RS is a multiple of 8, RS >= 8, PF >= 1, SPF >= 1, HP * PF * SPF = RS, MOTOR_STATES has 8 entries. -/
def RawConfig.rotationOk (c : RawConfig) : Bool :=
  decide (c.rs % 8 = 0 ∧ 8 ≤ c.rs ∧ 1 ≤ c.pf ∧ 1 ≤ c.spf ∧ c.hp * c.pf * c.spf = c.rs ∧
    c.motorStates.length = 8)

/-- R6: 1 <= CAP <= 255. -/
def RawConfig.bufferOk (c : RawConfig) : Bool :=
  decide (1 ≤ c.cap ∧ c.cap ≤ 255)

/-- R6: AF >= 1, 1 <= AMF <= AF, IDLE_COLUMNS >= 1. -/
def RawConfig.automatonOk (c : RawConfig) : Bool :=
  decide (1 ≤ c.af ∧ 1 ≤ c.amf ∧ c.amf ≤ c.af ∧ 1 ≤ c.idleColumns)

/-- R6: `OPC` is injective. -/
def RawConfig.opcOk (c : RawConfig) : Bool :=
  decide c.opc.assigned.Nodup

/-- R6: 1 <= ASPECT_MIN <= 0x0100 <= ASPECT_MAX, floor(PF * ASPECT_MIN / 256) >= 1, and both reset values lie in
their clamp ranges. The table constrains DUTY_MAX no further (log 23). -/
def RawConfig.registersOk (c : RawConfig) : Bool :=
  decide (1 ≤ c.aspectMin.toNat ∧ c.aspectMin.toNat ≤ 0x100 ∧ 0x100 ≤ c.aspectMax.toNat ∧
    1 ≤ c.pf * c.aspectMin.toNat / 256 ∧
    c.aspectMin.toNat ≤ c.aspectReset.toNat ∧ c.aspectReset.toNat ≤ c.aspectMax.toNat ∧
    c.dutyReset.toNat ≤ c.dutyMax.toNat)

/-- All the constraints of R6. -/
def RawConfig.ok (c : RawConfig) : Bool :=
  c.geometryOk && c.rotationOk && c.bufferOk && c.automatonOk && c.opcOk && c.registersOk

/-- A configuration: the parameters, and that they meet the constraints ("a configuration that violates a
constraint is refused by the model, not given a meaning", R6). -/
structure Config extends RawConfig where
  ok : toRawConfig.ok = true
deriving DecidableEq, Repr

/-- `PROTOCOL_VERSION`, the one constant the document gives a value for (R2, R6). -/
def protocolVersion : Nibble := 0x1

/-- The known-good rule list `RULESET` (R6, `45_automaton_generator.md` R239). -/
def ruleset : List Byte :=
  [18, 22, 26, 30, 45, 54, 57, 60, 90, 106, 110, 122, 126, 146, 150, 154, 184]

/-- The usual half-step sequence (`42_stepper_sequencer.md` R175, general knowledge G1): PRESUMED, log 20. -/
def halfStepTable : List Nibble := [0x1, 0x3, 0x2, 0x6, 0x4, 0xC, 0x8, 0x9]

/-- The parameters of `REF` (R7): the spec's own choice of small numbers, claiming nothing about the device. -/
def RawConfig.ref : RawConfig :=
  { vp := 16, hp := 10, rpm := 600, rs := 80, cap := 8, pf := 4, spf := 2, dirDelta := .plusOne,
    motorStates := halfStepTable, af := 12, amf := 4, opc := Opc.inListOrder, dutyMax := 0x0100,
    aspectMin := 0x0040, aspectMax := 0x0400, aspectReset := 0x0100, dutyReset := 0x0100, idleColumns := 11 }

/-- `REF` (R7). DESIGN CHOICE, log 1: the configuration of `State.reset`. -/
def Config.ref : Config := { toRawConfig := RawConfig.ref, ok := by decide }

/-- `draw(u16)` (R14): the free value of 16 bits that the n-th draw gives for a reserved register index; nothing
constrains it, and no two draws or indices are assumed to agree (`10_state.md` R26, log 10). -/
opaque Config.freeHalf : Nat → Nibble → Half

/-- `draw(u8)` (R14, `40_protocol_engine.md` R126): the n-th free byte; nothing constrains it (log 10). -/
opaque Config.freeByte : Nat → Byte

end Sys2Proof
end

