-- ==== Sys2Proof/Syntax.lean ====
section
/-! DEFINITION. The instruction set: one constructor per row of spec/opcode_table.json. An instruction is a command
byte's meaning, its opcode and its immediate nibble; a command on the wire is an instruction with its payload bytes
(`30_encoding.md` R90). -/

namespace Sys2Proof

/-- The rows of the opcode table (`30_encoding.md` R94, R95). The field is the immediate nibble, bits 3:0. -/
inductive Instr where
  /-- NO_OP: the immediate is ignored -/
  | noOp (imm : Nibble)
  /-- PUSH_LINE: the immediate is ignored; COLBYTES payload bytes -/
  | pushLine (imm : Nibble)
  /-- FLUSH_BUFFER: the immediate is ignored -/
  | flushBuffer (imm : Nibble)
  /-- CLEAR_BUFFER: the immediate is ignored -/
  | clearBuffer (imm : Nibble)
  /-- REG_READ of register `r` -/
  | regRead (r : Nibble)
  /-- REG_WRITE of register `r`; two payload bytes -/
  | regWrite (r : Nibble)
  /-- PING with echo nibble `e` -/
  | ping (e : Nibble)
  /-- RESERVED_7, and so on: the nine opcode nibbles that `OPC` assigns to no command, in increasing order -/
  | reserved7 (imm : Nibble)
  | reserved8 (imm : Nibble)
  | reserved9 (imm : Nibble)
  | reservedA (imm : Nibble)
  | reservedB (imm : Nibble)
  | reservedC (imm : Nibble)
  | reservedD (imm : Nibble)
  | reservedE (imm : Nibble)
  | reservedF (imm : Nibble)
deriving DecidableEq, Repr

/-- A command as the host sends it: "one command byte ... optionally followed by a fixed-length payload" (R90). -/
structure Command where
  instr   : Instr
  payload : List Byte
deriving DecidableEq, Repr

/-- The three command formats (R91): command byte only; with two payload bytes; with COLBYTES payload bytes. -/
inductive Format where
  | c
  | cw
  | cl
deriving DecidableEq, Repr

end Sys2Proof
end

