-- ==== Sys2Proof/Decode.lean ====
section
/-! DEFINITION. The wire format (`30_encoding.md`): decoding is total on any bytes and takes `OPC` as a parameter
(R94); after it the encoder, from the same table of rows. No byte value is illegal (R95): what decoding can reject,
by name, is a stream that ends too early. -/

namespace Sys2Proof

/-- Why no command can be read from a byte stream yet. -/
inductive DecodeError where
  /-- the stream is empty: there is no command byte -/
  | noCommandByte
  /-- the stream ends inside a payload of the given length (R65: the engine then waits for the rest) -/
  | shortPayload (need : Nat)
deriving DecidableEq, Repr

/-! ### Fields and formats -/

/-- `opcode = b[7:4]` (R90). -/
def opcodeField (b : Byte) : Nibble := b.extractLsb' 4 4

/-- `immediate = b[3:0]` (R90). -/
def immediateField (b : Byte) : Nibble := b.extractLsb' 0 4

/-- The command format of each row (R91). -/
def Instr.format : Instr → Format
  | .noOp _ => .c
  | .pushLine _ => .cl
  | .flushBuffer _ => .c
  | .clearBuffer _ => .c
  | .regRead _ => .c
  | .regWrite _ => .cw
  | .ping _ => .c
  | .reserved7 _ => .c
  | .reserved8 _ => .c
  | .reserved9 _ => .c
  | .reservedA _ => .c
  | .reservedB _ => .c
  | .reservedC _ => .c
  | .reservedD _ => .c
  | .reservedE _ => .c
  | .reservedF _ => .c

/-- `COLBYTES = VP / 8` (R13). -/
def colBytes (vp : Nat) : Nat := vp / 8

/-- Payload bytes of a format (R91, R93). -/
def Format.payloadLen (vp : Nat) : Format → Nat
  | .c => 0
  | .cw => 2
  | .cl => colBytes vp

/-- Payload bytes of an instruction; its command length is one more (R93). -/
def Instr.payloadLen (vp : Nat) (i : Instr) : Nat := i.format.payloadLen vp

/-! ### The opcode map -/

/-- The sixteen nibbles in increasing order. -/
def allNibbles : List Nibble :=
  [0x0, 0x1, 0x2, 0x3, 0x4, 0x5, 0x6, 0x7, 0x8, 0x9, 0xA, 0xB, 0xC, 0xD, 0xE, 0xF]

/-- The nibbles that `OPC` assigns to no command (R95), in increasing order. -/
def Opc.unassigned (o : Opc) : List Nibble := allNibbles.filter (fun n => !o.assigned.contains n)

/-- The opcode nibble of each table row, in row order: the seven commands, then the reserved rows. The k-th
unassigned nibble is the k-th reserved row (log 2). -/
def Opc.rows (o : Opc) : List Nibble := o.assigned ++ o.unassigned

/-- The instruction of a table row with immediate `e`. -/
def Instr.ofRow : Nat → Nibble → Instr
  | 0, e => .noOp e
  | 1, e => .pushLine e
  | 2, e => .flushBuffer e
  | 3, e => .clearBuffer e
  | 4, e => .regRead e
  | 5, e => .regWrite e
  | 6, e => .ping e
  | 7, e => .reserved7 e
  | 8, e => .reserved8 e
  | 9, e => .reserved9 e
  | 10, e => .reservedA e
  | 11, e => .reservedB e
  | 12, e => .reservedC e
  | 13, e => .reservedD e
  | 14, e => .reservedE e
  | _, e => .reservedF e

/-- The table row of an instruction. -/
def Instr.row : Instr → Nat
  | .noOp _ => 0
  | .pushLine _ => 1
  | .flushBuffer _ => 2
  | .clearBuffer _ => 3
  | .regRead _ => 4
  | .regWrite _ => 5
  | .ping _ => 6
  | .reserved7 _ => 7
  | .reserved8 _ => 8
  | .reserved9 _ => 9
  | .reservedA _ => 10
  | .reservedB _ => 11
  | .reservedC _ => 12
  | .reservedD _ => 13
  | .reservedE _ => 14
  | .reservedF _ => 15

/-- The immediate nibble of an instruction. -/
def Instr.imm : Instr → Nibble
  | .noOp e => e
  | .pushLine e => e
  | .flushBuffer e => e
  | .clearBuffer e => e
  | .regRead e => e
  | .regWrite e => e
  | .ping e => e
  | .reserved7 e => e
  | .reserved8 e => e
  | .reserved9 e => e
  | .reservedA e => e
  | .reservedB e => e
  | .reservedC e => e
  | .reservedD e => e
  | .reservedE e => e
  | .reservedF e => e

/-! ### Decoding -/

/-- `OPC^-1` and the immediate (R121): the instruction with opcode nibble `op` and immediate `e`. -/
def instrOf (o : Opc) (op e : Nibble) : Instr := Instr.ofRow (o.rows.idxOf op) e

/-- The instruction of a command byte. -/
def decodeByte (o : Opc) (b : Byte) : Instr := instrOf o (opcodeField b) (immediateField b)

/-- The instruction at the front of a byte stream, and the rest of the stream: its payload, if it has one, is data
and stays in the stream (R75). -/
def decode (o : Opc) : List Byte → Except DecodeError (Instr × List Byte)
  | [] => .error .noCommandByte
  | b :: rest => .ok (decodeByte o b, rest)

/-- The whole command at the front of a byte stream: its length is told by the opcode alone (R93). -/
def decodeCommand (o : Opc) (vp : Nat) (bs : List Byte) : Except DecodeError (Command × List Byte) :=
  match decode o bs with
  | .error e => .error e
  | .ok (i, rest) =>
    if rest.length < i.payloadLen vp then .error (.shortPayload (i.payloadLen vp))
    else .ok ({ instr := i, payload := rest.take (i.payloadLen vp) }, rest.drop (i.payloadLen vp))

/-! ### Encoding -/

/-- The command byte of an instruction: opcode nibble, then immediate nibble (R90). -/
def encodeByte (o : Opc) (i : Instr) : Byte := o.rows.getD i.row 0x0#4 ++ i.imm

/-- The words of an instruction: its command byte. -/
def encode (o : Opc) (i : Instr) : List Byte := [encodeByte o i]

/-- The bytes of a command on the wire (R90). -/
def encodeCommand (o : Opc) (c : Command) : List Byte := encodeByte o c.instr :: c.payload

/-- The bytes of a command sequence in the notation of R99, one command after the other. -/
def encodeProgram (o : Opc) (cs : List Command) : List Byte := cs.flatMap (encodeCommand o)

/-! ### Table words -/

/-- The first `nbits / 8` bytes of a table word, bit 0 the least significant bit of the first byte. -/
def wordBytes (nbits w : Nat) : List Byte :=
  (List.range (nbits / 8)).map (fun k => BitVec.ofNat 8 (w / 2 ^ (8 * k)))

/-- The bytes of the instruction with table word `w`: those of the word, then zero payload bytes up to the length
that its opcode asks for. -/
def tableBytes (o : Opc) (vp nbits w : Nat) : List Byte :=
  match wordBytes nbits w with
  | [] => [0#8]
  | b :: rest => b :: rest ++ List.replicate ((decodeByte o b).payloadLen vp - rest.length) 0#8

/-- The instruction that the decoder reads from a table word, under the default `OPC` (log 2). -/
def decodeTableWord (nbits w : Nat) : Option Instr :=
  match decode Config.ref.opc (tableBytes Config.ref.opc Config.ref.vp nbits w) with
  | .ok (i, _) => some i
  | .error _ => none

end Sys2Proof
end

