-- ==== Sys2Proof/Machine/Column.lean ====
section
/-! DEFINITION. Pixel columns: packing to and from bytes (`00_scope.md` R13, `20_memory.md` R63), the seed row and
the elementary cellular-automaton transition (`45_automaton_generator.md` R231, R232). -/

namespace Sys2Proof.Machine

/-- The column with every LED dark. -/
def dark (vp : Nat) : Col := List.replicate vp false

/-- `SEED`: the row with the single cell `VP div 2` set (R232; the spec's decision D23). -/
def seed (vp : Nat) : Col := (List.range vp).map (fun i => i == vp / 2)

/-- The eight bits of a byte, most significant first: bit `7 - j` is number `j` (R63). -/
def byteBits (b : Byte) : List Bool :=
  [b.getLsbD 7, b.getLsbD 6, b.getLsbD 5, b.getLsbD 4, b.getLsbD 3, b.getLsbD 2, b.getLsbD 1, b.getLsbD 0]

/-- The byte whose bits, most significant first, are the given ones. -/
def bitsByte (bits : List Bool) : Byte := BitVec.ofNat 8 (bits.foldl (fun n b => 2 * n + b.toNat) 0)

/-- `unpack(bytes)`: LED `8k + j` is bit `7 - j` of byte `k` (R13, R63, `30_encoding.md` R97). -/
def unpack (bytes : List Byte) : Col := bytes.flatMap byteBits

/-- `pack(c)`, the inverse of `unpack` on columns of whole bytes (R13); VP is a multiple of 8, so no column ends
inside a byte (R65). -/
def pack : Col → List Byte
  | b0 :: b1 :: b2 :: b3 :: b4 :: b5 :: b6 :: b7 :: rest => bitsByte [b0, b1, b2, b3, b4, b5, b6, b7] :: pack rest
  | _ => []

/-- The new value of a cell with neighbourhood left, centre, right: bit `4 l + 2 c + q` of the rule number (R231). -/
def caCell (rule : Byte) (l c q : Bool) : Bool := rule.getLsbD (4 * l.toNat + 2 * c.toNat + q.toNat)

/-- `CA(rule, row)`: every cell from the old row, on a circle (R231; the spec's decision D22). -/
def caNext (rule : Byte) (row : Col) : Col :=
  (List.range row.length).map (fun i =>
    caCell rule (row.getD ((i + (row.length - 1)) % row.length) false) (row.getD i false)
      (row.getD ((i + 1) % row.length) false))

end Sys2Proof.Machine
end

