-- ==== Sys2Proof/Machine/State.lean ====
section
/-! DEFINITION. The state of the core, plain data, with the spec's own dotted names (`10_state.md` R20 to R45), what
a step can stop with, and the state right after reset (R45, `70_reset_and_hazards.md` R290). -/

namespace Sys2Proof.Machine

/-- The Register Bank's storage: registers 3 and 4 (R20, R23, R24). The other registers are constants or computed. -/
structure RegBank where
  aspect : Half
  duty   : Half
deriving DecidableEq, Repr

/-- The display-buffer memory (`20_memory.md` R60): (slot, column) pairs in canonical form (`Memory.wf`, Ops.lean). -/
abbrev Memory := List (Nat × Col)

/-- The Display Buffer (R30): `db.mem`, `db.head`, `db.count`. -/
structure DisplayBuffer where
  mem   : Memory
  head  : Nat
  count : Nat
deriving DecidableEq, Repr

/-- The Stepper Sequencer (R34); `motor` is pin3, pin2, pin1, pin0. -/
structure Stepper where
  phase : Fin 8
  step  : Nat
  motor : Nibble
deriving DecidableEq, Repr

/-- The Automaton Generator (R35). -/
structure Automaton where
  active    : Bool
  ridx      : Fin 17
  row       : Col
  frames    : Nat
  prev      : Col
  prevValid : Bool
  stuck     : Bool
deriving DecidableEq, Repr

/-- The parser states (R37). -/
inductive PeState where
  | idle
  | payload
  | waitSpace
  | waitEmpty
deriving DecidableEq, Repr

/-- The Protocol Engine (R37). -/
structure Engine where
  state : PeState
  op    : Nibble
  imm   : Nibble
  need  : Nat
  buf   : List Byte
deriving DecidableEq, Repr

/-- One event on the LED driver's serial lines (`00_scope.md` R11). -/
inductive LedEvent where
  /-- one serial-clock pulse with serial-data = `b` -/
  | shiftBit (b : Bool)
  /-- one latch-enable pulse -/
  | latch
deriving DecidableEq, Repr

/-- What the environment lets happen next: a step of one of the three agents, or the reset input (R8, R11). -/
inductive Event where
  /-- HOST appends one byte to `rx` -/
  | hostSend (b : Byte)
  /-- HOST removes `n` bytes from the front of `tx` -/
  | hostRead (n : Nat)
  /-- PE takes its enabled step -/
  | pe
  /-- `step_tick`: TICK takes its step -/
  | tick
  /-- `reset`: power-up -/
  | reset
deriving DecidableEq, Repr

/-- Why the machine stops with a fault: never. "No command and no internal operation raises an exception, traps,
faults or halts" (`60_exceptions.md` R260), so the type has no constructor. Nobody raises it (safe). -/
inductive Fault : Type
deriving DecidableEq, Repr

/-- Why the model gives no meaning. -/
inductive Refusal where
  /-- An instruction that has no meaning yet. Raised by a refused arm of `exec` only; no arm of this model is
  refused. Safe. -/
  | notModelled (mnemonic : String)
  /-- A configuration that violates a constraint of R6 is "refused by the model, not given a meaning". Raised by
  `State.boot` only. Safe. -/
  | invalidConfig
deriving DecidableEq, Repr

/-- The whole state. `cfg` is the machine's configuration: no step changes it (log 1). `inputs` and `draws` are the
model's own: which agent moves next (log 6), and how many free values were drawn (log 10). -/
structure State where
  /-- the configuration record of R6 -/
  cfg      : Config
  reg      : RegBank
  db       : DisplayBuffer
  /-- the current-column latch (R32) -/
  cur      : Col
  /-- the column latched in the LED driver (R33) -/
  led      : Col
  /-- the output-enable level (R33) -/
  oe       : Bool
  /-- the LED driver's serial events so far, oldest first (`00_scope.md` R11; log 13) -/
  ledTrace : List LedEvent
  st       : Stepper
  au       : Automaton
  /-- the idle detector (R36) -/
  idleCnt  : Nat
  pe       : Engine
  /-- the inbound byte stream (R38) -/
  rx       : List Byte
  /-- the outbound byte stream (R38) -/
  tx       : List Byte
  inputs   : List Event
  draws    : Nat
deriving DecidableEq, Repr

/-- The reset state of a configuration: the table of R45. Where the table says "unspecified": `db.mem` lists nothing
(log 12), `au.prev` is dark and `pe.op`, `pe.imm` are 0 (log 11). -/
def State.resetOf (c : Config) : State :=
  { cfg := c
    reg := { aspect := c.aspectReset, duty := c.dutyReset }
    db := { mem := [], head := 0, count := 0 }
    cur := dark c.vp
    led := dark c.vp
    oe := false
    ledTrace := []
    st := { phase := 0, step := 0, motor := c.motorStates.getD 0 0 }
    au := { active := false, ridx := 0, row := seed c.vp, frames := 0, prev := dark c.vp, prevValid := false,
            stuck := false }
    idleCnt := 0
    pe := { state := .idle, op := 0, imm := 0, need := 0, buf := [] }
    rx := []
    tx := []
    inputs := []
    draws := 0 }

/-- The state right after reset, under the reference configuration (log 1). -/
def State.reset : State := State.resetOf Config.ref

/-- Powering up a machine built with the parameters `c`: a configuration that violates a constraint of R6 is
refused. -/
def State.boot (c : RawConfig) : Host.Outcome State Fault Refusal :=
  if h : c.ok = true then .next (State.resetOf { toRawConfig := c, ok := h }) else .refused .invalidConfig

end Sys2Proof.Machine
end

