-- ==== Sys2Proof/Machine/Ops.lean ====
section
/-! DEFINITION. The named operations over memory, the Display Buffer and the byte streams. The core takes no
exception and returns from none (`60_exceptions.md` R260, R268, R269), so there is no operation for that. -/

namespace Sys2Proof.Machine

/-! ### Display-buffer memory (`20_memory.md` R60) -/

/-- The form every display-buffer memory keeps: slots strictly rising and below CAP, each column VP bits wide, and no
entry equal to the dark column, which is what an unlisted slot reads as (log 12). -/
abbrev Memory.wf (vp cap : Nat) (m : Memory) : Prop :=
  m.Pairwise (fun a b => a.1 < b.1) ∧ ∀ p ∈ m, p.1 < cap ∧ p.2.length = vp ∧ p.2 ≠ dark vp

/-- `MemRead(slot, 1)` (R60). An unlisted slot reads as the dark column: DESIGN CHOICE, log 12. -/
def Memory.read (vp : Nat) : Memory → Nat → Col
  | [], _ => dark vp
  | (a, c) :: m, k => if a = k then c else Memory.read vp m k

/-- `MemWrite(slot, 1, c)` (R60), keeping the canonical form. -/
def Memory.write (vp : Nat) : Memory → Nat → Col → Memory
  | [], k, c => if c = dark vp then [] else [(k, c)]
  | (a, d) :: m, k, c =>
    if k < a then (if c = dark vp then (a, d) :: m else (k, c) :: (a, d) :: m)
    else if k = a then (if c = dark vp then m else (k, c) :: m)
    else (a, d) :: Memory.write vp m k c

/-! ### The Display Buffer (`41_display_buffer.md`) -/

/-- The slot that the next push writes, `db.tail` (`10_state.md` R30). -/
def DisplayBuffer.tail (cap : Nat) (d : DisplayBuffer) : Nat := (d.head + d.count) % cap

/-- The abstract content `db.q`, oldest column first (`10_state.md` R30). -/
def DisplayBuffer.q (vp cap : Nat) (d : DisplayBuffer) : List Col :=
  (List.range d.count).map (fun k => Memory.read vp d.mem ((d.head + k) % cap))

/-- `occupancy()` (R155). -/
def DisplayBuffer.occupancy (d : DisplayBuffer) : Nat := d.count

/-- `free = CAP - db.count` (R150). -/
def DisplayBuffer.free (cap : Nat) (d : DisplayBuffer) : Nat := cap - d.count

/-- `push(c)` (R151): false and no mutation when full. -/
def DisplayBuffer.push (vp cap : Nat) (d : DisplayBuffer) (c : Col) : Bool × DisplayBuffer :=
  if d.count = cap then (false, d)
  else (true, { d with mem := Memory.write vp d.mem (d.tail cap) c, count := d.count + 1 })

/-- `pop()` (R152): `none` is the spec's `empty`, with no mutation. -/
def DisplayBuffer.pop (vp cap : Nat) (d : DisplayBuffer) : Option Col × DisplayBuffer :=
  if d.count = 0 then (none, d)
  else (some (Memory.read vp d.mem d.head), { d with head := (d.head + 1) % cap, count := d.count - 1 })

/-- `peek_head()` (R153): an observation; no rule calls it. -/
def DisplayBuffer.peekHead (vp : Nat) (d : DisplayBuffer) : Option Col :=
  if d.count = 0 then none else some (Memory.read vp d.mem d.head)

/-- `clear()` (R154). -/
def DisplayBuffer.clear (cap : Nat) (d : DisplayBuffer) : DisplayBuffer := { d with head := d.tail cap, count := 0 }

/-- `db.push(c)` on the state; the Boolean says whether it succeeded. -/
def State.dbPush (s : State) (c : Col) : Bool × State :=
  ((s.db.push s.cfg.vp s.cfg.cap c).1, { s with db := (s.db.push s.cfg.vp s.cfg.cap c).2 })

/-- `db.clear()` on the state. -/
def State.dbClear (s : State) : State := { s with db := s.db.clear s.cfg.cap }

/-- `db.q` of the state. -/
def State.queue (s : State) : List Col := s.db.q s.cfg.vp s.cfg.cap

/-! ### Byte streams and free values (`00_scope.md` R10, R14) -/

/-- `tx.emit(b)` for each byte in turn: the bytes go to the back of `tx`. -/
def State.emit (s : State) (bs : List Byte) : State := { s with tx := s.tx ++ bs }

/-- `draw(u16)` for a read of the reserved index `i`: a free value that may depend on the index and differs from draw
to draw (`10_state.md` R26), and the state that has drawn it. -/
def State.drawHalf (s : State) (i : Nibble) : Half × State :=
  (Config.freeHalf s.draws i, { s with draws := s.draws + 1 })

/-- `draw(u8)`: a free byte, and the state that has drawn it. -/
def State.drawByte (s : State) : Byte × State := (Config.freeByte s.draws, { s with draws := s.draws + 1 })

/-! ### The Protocol Engine's parser (`40_protocol_engine.md` R121, R122) -/

/-- `pe.state <- S`. -/
def State.setPe (s : State) (p : PeState) : State := { s with pe := { s.pe with state := p } }

/-- DISPATCH of a command with a payload: `pe.need <- n; pe.state <- PAYLOAD` (R121). -/
def State.awaitPayload (s : State) (n : Nat) : State :=
  { s with pe := { s.pe with need := n, state := .payload } }

/-- The payload byte `p` joins `pe.buf` and `pe.need` counts down (R122). -/
def State.takePayload (s : State) (p : Byte) (rest : List Byte) : State :=
  { s with rx := rest, pe := { s.pe with buf := s.pe.buf ++ [p], need := s.pe.need - 1 } }

/-- COLLECT (R122): one payload byte is taken from `rx`; the step that takes the last one also does `finish`. With
`rx` empty no PE step is enabled and nothing changes (R133, I24). -/
def State.collect (s : State) (finish : State → State) : State :=
  match s.rx with
  | [] => s
  | p :: rest => if s.pe.need - 1 = 0 then finish (s.takePayload p rest) else s.takePayload p rest

end Sys2Proof.Machine
end

