-- ==== Sys2Proof/Machine/Flags.lean ====
section
/-! DEFINITION. The status conditions (`10_state.md` R41). The core has no condition codes; these are the derived
conditions that enable steps. -/

namespace Sys2Proof.Machine

/-- `db_full = (db.count == CAP)`. -/
def dbFull (s : State) : Bool := s.db.count == s.cfg.cap

/-- `db_empty = (db.count == 0)`. -/
def dbEmpty (s : State) : Bool := s.db.count == 0

/-- Whether a PE step is enabled (`40_protocol_engine.md` R120, R133). -/
def peEnabled (s : State) : Bool :=
  match s.pe.state with
  | .idle => !s.rx.isEmpty
  | .payload => !s.rx.isEmpty
  | .waitSpace => decide (s.db.count < s.cfg.cap)
  | .waitEmpty => dbEmpty s

/-- Stuck detection (`45_automaton_generator.md` R233; the spec's decision D24): the new generation equals the
current one or, where there is one, the one before. -/
def repeats (a : Automaton) (nxt : Col) : Bool := nxt == a.row || (a.prevValid && nxt == a.prev)

/-- The rule's frame budget is spent (`45_automaton_generator.md` R239; the spec's decision D25). -/
def budgetSpent (c : Config) (a : Automaton) : Bool :=
  decide (c.af ≤ a.frames) || (a.stuck && decide (c.amf ≤ a.frames))

end Sys2Proof.Machine
end

