-- ==== Sys2Proof/Machine/Automaton.lean ====
section
/-! DEFINITION. The Automaton Generator (`45_automaton_generator.md`). -/

namespace Sys2Proof.Machine

/-- RESEED (R232). -/
def reseed (vp : Nat) (a : Automaton) : Automaton :=
  { a with row := seed vp, frames := 0, stuck := false, prevValid := false }

/-- ROTATE RULE and reseed, when the budget is spent (R239, head of FRAME in R234). -/
def rotate (c : Config) (a : Automaton) : Automaton :=
  if budgetSpent c a then reseed c.vp { a with ridx := a.ridx + 1 } else a

/-- The current rule, `RULESET[au.ridx]` (`10_state.md` R35). -/
def currentRule (a : Automaton) : Byte := ruleset.getD a.ridx.val 0

/-- The row that FRAME shows and the stuck detector's update, before the push (R234): the seed as the first frame,
the next generation as every later one. -/
def advance (a : Automaton) : Automaton :=
  if a.frames = 0 then a
  else
    { a with stuck := a.stuck || repeats a (caNext (currentRule a) a.row)
             prev := a.row
             prevValid := true
             row := caNext (currentRule a) a.row }

/-- FRAME (R234): with the buffer full, back off and change nothing. -/
def frame (s : State) : State :=
  if dbFull s then s
  else
    let a := advance (rotate s.cfg s.au)
    { (s.dbPush a.row).2 with au := { a with frames := a.frames + 1 } }

/-- FALLBACK (R235): `popped` says whether the renderer's pop returned a column. -/
def fallback (popped : Bool) (s : State) : State :=
  if s.pe.state ≠ .idle then s
  else if s.au.active then frame s
  else if popped then { s with idleCnt := 0 }
  else if min (s.idleCnt + 1) s.cfg.idleColumns = s.cfg.idleColumns then
    frame { s with idleCnt := 0, au := reseed s.cfg.vp { s.au with active := true } }
  else { s with idleCnt := min (s.idleCnt + 1) s.cfg.idleColumns }

/-- SUSPEND (R238, R236): what a successful PUSH_LINE does to the generator and the idle detector. -/
def suspend (s : State) : State := { s with au := { s.au with active := false }, idleCnt := 0 }

end Sys2Proof.Machine
end

