-- ==== Sys2Proof/Machine/Operands.lean ====
section
/-! DEFINITION. Operand assembly, responses, and the Register Bank's read and write (`30_encoding.md` R96 to R98,
`44_register_bank.md`). The operand forms are: an immediate used as a register index or as an echo nibble, two payload
bytes as a 16-bit value, COLBYTES payload bytes as a column. -/

namespace Sys2Proof.Machine

/-- `v[15:8]`. -/
def highByte (v : Half) : Byte := v.extractLsb' 8 8

/-- `v[7:0]`. -/
def lowByte (v : Half) : Byte := v.extractLsb' 0 8

/-- A 16-bit value as response bytes, "high byte first" (R96, `20_memory.md` R62). -/
def halfBytes (v : Half) : List Byte := [highByte v, lowByte v]

/-- The REG_WRITE operand: `v = {p0, p1}`, the first payload byte the more significant (R96). -/
def valueOperand (buf : List Byte) : Half := buf.getD 0 0#8 ++ buf.getD 1 0#8

/-- The PUSH_LINE operand: the column of the payload bytes (R97). -/
def columnOperand (buf : List Byte) : Col := unpack buf

/-- The PING response: `{PROTOCOL_VERSION[3:0], e}` (R98). -/
def pingByte (e : Nibble) : Byte := protocolVersion ++ e

/-- The PUSH_LINE response: `zext_8(CAP - db.count)`, with the occupancy after the enqueue (R98). -/
def freeByteOf (s : State) : Byte := BitVec.ofNat 8 (s.db.free s.cfg.cap)

/-! ### The Register Bank -/

/-- REG_BUFFER_SIZE: `{CAP[7:0], db.count[7:0]}` (`10_state.md` R25). -/
def bufferSize (s : State) : Half := BitVec.ofNat 8 s.cfg.cap ++ BitVec.ofNat 8 s.db.occupancy

/-- `x[i]` (R211): the value read, and the state after the read. Only a reserved index changes it, by drawing a free
value (`10_state.md` R26). -/
def readReg (i : Nibble) (s : State) : Half × State :=
  match i.toNat with
  | 0 => (BitVec.ofNat 16 s.cfg.vp, s)
  | 1 => (BitVec.ofNat 16 s.cfg.hp, s)
  | 2 => (BitVec.ofNat 16 s.cfg.rpm, s)
  | 3 => (s.reg.aspect, s)
  | 4 => (s.reg.duty, s)
  | 5 => (bufferSize s, s)
  | _ => s.drawHalf i

/-- `clamp(v, lo, hi) = max(lo, min(v, hi))`, unsigned (R12, R212). -/
def clampHalf (v lo hi : Half) : Half :=
  if v.toNat < lo.toNat then lo else if hi.toNat < v.toNat then hi else v

/-- `min(v, hi)`, unsigned (R212). -/
def minHalf (v hi : Half) : Half := if hi.toNat < v.toNat then hi else v

/-- `x[i] <- v` (R212): registers 3 and 4 clamp; writing any other index is "a silent no-op" (R213). -/
def writeReg (i : Nibble) (v : Half) (s : State) : State :=
  match i.toNat with
  | 3 => { s with reg := { s.reg with aspect := clampHalf v s.cfg.aspectMin s.cfg.aspectMax } }
  | 4 => { s with reg := { s.reg with duty := minHalf v s.cfg.dutyMax } }
  | _ => s

end Sys2Proof.Machine
end

