-- ==== Sys2Proof/Machine/Buffer.lean ====
section
/-! DEFINITION. The meanings of the commands on the Display Buffer: PUSH_LINE, FLUSH_BUFFER, CLEAR_BUFFER
(`40_protocol_engine.md` R124 to R127). A meaning gives the PE step that the command takes in the parser state it is
run in: DISPATCH, COLLECT, PUSH-COMPLETE, FLUSH-COMPLETE (R120; log 4). Where no PE step is enabled nothing changes
(last row of R133); the parser states that the command never reaches are such (log 5). -/

namespace Sys2Proof.Machine

/-- PUSH-COMPLETE (R124): push the collected column, SUSPEND the generator, answer the free slots left, back to IDLE.
With the buffer full the step is not enabled: the command waits (R125). -/
def pushComplete (s : State) : State :=
  if s.db.count < s.cfg.cap then
    let t := suspend (s.dbPush (columnOperand s.pe.buf)).2
    (t.emit [freeByteOf t]).setPe .idle
  else s

/-- FLUSH-COMPLETE (R126): one unspecified byte "purely as a completion signal", back to IDLE. With the buffer not
empty the step is not enabled: the command waits. -/
def flushComplete (s : State) : State :=
  if dbEmpty s then (s.drawByte.2.emit [s.drawByte.1]).setPe .idle else s

/-- PUSH_LINE (R124): the immediate is ignored. The payload is collected first, then the engine waits for space. -/
def execPushLine (_imm : Nibble) (s : State) : Host.Outcome State Fault Refusal :=
  match s.pe.state with
  | .idle => .next (s.awaitPayload (colBytes s.cfg.vp))
  | .payload => .next (s.collect (fun t => t.setPe .waitSpace))
  | .waitSpace => .next (pushComplete s)
  | .waitEmpty => .next s

/-- FLUSH_BUFFER (R126): the immediate is ignored. -/
def execFlushBuffer (_imm : Nibble) (s : State) : Host.Outcome State Fault Refusal :=
  match s.pe.state with
  | .idle => .next (s.setPe .waitEmpty)
  | .waitEmpty => .next (flushComplete s)
  | .payload => .next s
  | .waitSpace => .next s

/-- CLEAR_BUFFER (R127): the immediate is ignored; "atomically discards all buffered columns not currently under
scan-out; returns nothing". -/
def execClearBuffer (_imm : Nibble) (s : State) : Host.Outcome State Fault Refusal := .next s.dbClear

end Sys2Proof.Machine
end

