-- ==== Sys2Proof/Machine/Register.lean ====
section
/-! DEFINITION. The meanings of REG_READ and REG_WRITE (`40_protocol_engine.md` R128, R129). -/

namespace Sys2Proof.Machine

/-- REG_READ (R128): the register's 16-bit value, high byte first; one atomic sample. -/
def execRegRead (r : Nibble) (s : State) : Host.Outcome State Fault Refusal :=
  .next ((readReg r s).2.emit (halfBytes (readReg r s).1))

/-- REG_WRITE (R129): two payload bytes, high byte first, are collected for every `r`; the step that takes the second
writes the register and goes back to IDLE. In the parser states that the command never reaches nothing changes
(log 5). -/
def execRegWrite (r : Nibble) (s : State) : Host.Outcome State Fault Refusal :=
  match s.pe.state with
  | .idle => .next (s.awaitPayload 2)
  | .payload => .next (s.collect (fun t => (writeReg r (valueOperand t.pe.buf) t).setPe .idle))
  | .waitSpace => .next s
  | .waitEmpty => .next s

end Sys2Proof.Machine
end

