-- ==== Sys2Proof/Machine/System.lean ====
section
/-! DEFINITION. The meanings of NO_OP, PING and the reserved opcodes (`40_protocol_engine.md` R123, R130, R131). Each
is one DISPATCH step; its command byte has been taken by `fetch` (Fetch.lean). Outside IDLE, which none of them reaches,
they do the same (log 5). -/

namespace Sys2Proof.Machine

/-- "no state change, no response bytes" (R123). -/
def noEffect (s : State) : Host.Outcome State Fault Refusal := .next s

/-- NO_OP (R123): the immediate is ignored. -/
def execNoOp (_imm : Nibble) (s : State) : Host.Outcome State Fault Refusal := noEffect s

/-- PING (R130): one response byte, version nibble and echo nibble. -/
def execPing (e : Nibble) (s : State) : Host.Outcome State Fault Refusal := .next (s.emit [pingByte e])

/-- A reserved opcode is "treated as NO_OP (ignored, no response)" (R131). -/
def execReserved7 (_imm : Nibble) (s : State) : Host.Outcome State Fault Refusal := noEffect s

/-- Reserved, as NO_OP (R131). -/
def execReserved8 (_imm : Nibble) (s : State) : Host.Outcome State Fault Refusal := noEffect s

/-- Reserved, as NO_OP (R131). -/
def execReserved9 (_imm : Nibble) (s : State) : Host.Outcome State Fault Refusal := noEffect s

/-- Reserved, as NO_OP (R131). -/
def execReservedA (_imm : Nibble) (s : State) : Host.Outcome State Fault Refusal := noEffect s

/-- Reserved, as NO_OP (R131). -/
def execReservedB (_imm : Nibble) (s : State) : Host.Outcome State Fault Refusal := noEffect s

/-- Reserved, as NO_OP (R131). -/
def execReservedC (_imm : Nibble) (s : State) : Host.Outcome State Fault Refusal := noEffect s

/-- Reserved, as NO_OP (R131). -/
def execReservedD (_imm : Nibble) (s : State) : Host.Outcome State Fault Refusal := noEffect s

/-- Reserved, as NO_OP (R131). -/
def execReservedE (_imm : Nibble) (s : State) : Host.Outcome State Fault Refusal := noEffect s

/-- Reserved, as NO_OP (R131). -/
def execReservedF (_imm : Nibble) (s : State) : Host.Outcome State Fault Refusal := noEffect s

end Sys2Proof.Machine
end

