-- ==== Sys2Proof/Machine/Dispatch.lean ====
section
/-! DEFINITION. One arm per constructor of `Instr`. -/

namespace Sys2Proof.Machine

def exec (i : Instr) (s : State) : Host.Outcome State Fault Refusal :=
  match i with
  | .noOp imm => Sys2Proof.Machine.execNoOp imm s
  | .pushLine imm => Sys2Proof.Machine.execPushLine imm s
  | .flushBuffer imm => Sys2Proof.Machine.execFlushBuffer imm s
  | .clearBuffer imm => Sys2Proof.Machine.execClearBuffer imm s
  | .regRead r => Sys2Proof.Machine.execRegRead r s
  | .regWrite r => Sys2Proof.Machine.execRegWrite r s
  | .ping e => Sys2Proof.Machine.execPing e s
  | .reserved7 imm => Sys2Proof.Machine.execReserved7 imm s
  | .reserved8 imm => Sys2Proof.Machine.execReserved8 imm s
  | .reserved9 imm => Sys2Proof.Machine.execReserved9 imm s
  | .reservedA imm => Sys2Proof.Machine.execReservedA imm s
  | .reservedB imm => Sys2Proof.Machine.execReservedB imm s
  | .reservedC imm => Sys2Proof.Machine.execReservedC imm s
  | .reservedD imm => Sys2Proof.Machine.execReservedD imm s
  | .reservedE imm => Sys2Proof.Machine.execReservedE imm s
  | .reservedF imm => Sys2Proof.Machine.execReservedF imm s

end Sys2Proof.Machine
end

