-- ==== Sys2Proof/Machine/Environment.lean ====
section
/-! DEFINITION. The steps of the outside world: HOST and the reset input (`00_scope.md` R8, R11,
`70_reset_and_hazards.md` R290). -/

namespace Sys2Proof.Machine

/-- HOST appends one byte to `rx` (R8). -/
def hostSend (b : Byte) (s : State) : State := { s with rx := s.rx ++ [b] }

/-- HOST removes `n` bytes from the front of `tx` (R8; log 8). -/
def hostRead (n : Nat) (s : State) : State := { s with tx := s.tx.drop n }

/-- The input `reset` (R290): every state element at its reset value. The configuration, the environment's remaining
events and the number of free values drawn are not state of the core and stay (log 9). -/
def powerUp (s : State) : State := { State.resetOf s.cfg with inputs := s.inputs, draws := s.draws }

end Sys2Proof.Machine
end

