-- ==== Sys2Proof/Machine/Fetch.lean ====
section
/-! DEFINITION. What the Protocol Engine runs next (`40_protocol_engine.md` R120, R121). There is no program counter:
the front of `rx` with `pe.state` and `pe.need` stands in for it (`10_state.md` R40). -/

namespace Sys2Proof.Machine

/-- The part of DISPATCH that is common to all commands (R121): the command byte leaves `rx` and its two fields are
stored, `pe.buf` is emptied. -/
def takeCommandByte (s : State) (b : Byte) (rest : List Byte) : State :=
  { s with rx := rest, pe := { s.pe with op := opcodeField b, imm := immediateField b, buf := [] } }

/-- The command in progress, told by the stored opcode and immediate (`10_state.md` R37). -/
def inProgress (s : State) : Instr := instrOf s.cfg.opc s.pe.op s.pe.imm

/-- The instruction that PE's next step runs, and the state it runs in; `none` if no PE step is enabled. In IDLE it is
the one that the front of `rx` decodes to; otherwise the command in progress goes on. -/
def fetch (s : State) : Option (Instr × State) :=
  if peEnabled s then
    match s.pe.state with
    | .idle =>
      match s.rx with
      | [] => none
      | b :: rest => some (decodeByte s.cfg.opc b, takeCommandByte s b rest)
    | .payload => some (inProgress s, s)
    | .waitSpace => some (inProgress s, s)
    | .waitEmpty => some (inProgress s, s)
  else none

/-- The environment's next event is used up. -/
def dropInput (s : State) : State := { s with inputs := s.inputs.tail }

/-- Put the bytes where PE takes its next command byte from: the parser IDLE, the bytes at the front of `rx`, PE's
turn next (log 7). -/
def placeCommand (s : State) (bs : List Byte) : State :=
  { s with rx := bs ++ s.rx
           pe := { s.pe with state := .idle }
           inputs := match s.inputs with
             | [] => []
             | e :: es => .pe :: e :: es }

end Sys2Proof.Machine
end

