-- ==== Sys2Proof/Machine/Renderer.lean ====
section
/-! DEFINITION. The Scan-Out Renderer (`43_scanout_renderer.md`): position functions, pixel shifter, duty gating. -/

namespace Sys2Proof.Machine

/-- `col_subticks(a) = max(1, floor(PF * a / 256))` (R188; the spec's decision D17). -/
def colSubticks (c : Config) (a : Half) : Nat := max 1 (c.pf * a.toNat / 256)

/-- `csteps`: stepper ticks per column (R187). -/
def csteps (s : State) : Nat := colSubticks s.cfg s.reg.aspect * s.cfg.spf

/-- `pos = st.step mod csteps` (R187). -/
def pos (s : State) : Nat := s.st.step % csteps s

/-- The column index `col = st.step div csteps` (R187). Nothing uses it. -/
def columnIndex (s : State) : Nat := s.st.step / csteps s

/-- The sub-tick index `sub = pos div SPF` (R187). -/
def subTick (s : State) : Nat := pos s / s.cfg.spf

/-- `on_subticks(d) = floor(d * PF / 256)` (R190; the spec's decision D18). -/
def onSubticks (c : Config) (d : Half) : Nat := d.toNat * c.pf / 256

/-- The events of SHIFT_OUT(c): every bit in LED-index order, then one latch (R191, `20_memory.md` R64). -/
def shiftEvents (c : Col) : List LedEvent := c.map LedEvent.shiftBit ++ [.latch]

/-- SHIFT_OUT(c) (R191). -/
def shiftOut (c : Col) (s : State) : State := { s with led := c, ledTrace := s.ledTrace ++ shiftEvents c }

/-- Duty gating (R190): the enable after the tick. -/
def gate (s : State) : State := { s with oe := decide (subTick s < onSubticks s.cfg s.reg.duty) }

end Sys2Proof.Machine
end

