-- ==== Sys2Proof/Machine/Stepper.lean ====
section
/-! DEFINITION. The Stepper Sequencer (`42_stepper_sequencer.md`). -/

namespace Sys2Proof.Machine

/-- `(st.phase + DIR_DELTA) mod 8` (R171). -/
def nextPhase (d : Direction) (p : Fin 8) : Fin 8 :=
  match d with
  | .plusOne => p + 1
  | .minusOne => p - 1

/-- STEP (R171): the new phase, its pin pattern, and the step count modulo RS. -/
def stepMotor (s : State) : State :=
  { s with st := { phase := nextPhase s.cfg.dirDelta s.st.phase
                   step := (s.st.step + 1) % s.cfg.rs
                   motor := s.cfg.motorStates.getD (nextPhase s.cfg.dirDelta s.st.phase).val 0 } }

/-- `STEP_MICROSECONDS = 60000000 / (RPM * RS)`, rounded down (R174; the spec's decision D15). Timing only: no rule
depends on it. -/
def stepMicroseconds (c : Config) : Nat := 60000000 / (c.rpm * c.rs)

end Sys2Proof.Machine
end

