-- ==== Sys2Proof/Machine/Tick.lean ====
section
/-! DEFINITION. The whole TICK step (`43_scanout_renderer.md` R186): atomic, enabled in every state. -/

namespace Sys2Proof.Machine

/-- The column fetch of a boundary (R189): whether the pop returned a column, and the state after it. -/
def fetchColumn (s : State) : Bool × State :=
  match s.db.pop s.cfg.vp s.cfg.cap with
  | (none, _) => (false, s)
  | (some c, d) => (true, shiftOut c { s with db := d, cur := c })

/-- The work of a column boundary: pop and shift-out, then the generator (R186). -/
def boundary (s : State) : State := fallback (fetchColumn s).1 (fetchColumn s).2

/-- TICK (R186): STEP, then the boundary's work if the new step count is a column boundary, then `oe`. -/
def tick (s : State) : State :=
  let s1 := stepMotor s
  gate (if pos s1 = 0 then boundary s1 else s1)

/-- `n` consecutive ticks. -/
def ticks : Nat → State → State
  | 0, s => s
  | n + 1, s => ticks n (tick s)

end Sys2Proof.Machine
end

