-- ==== Sys2Proof/Machine/Step.lean ====
section
/-! DEFINITION. One step of the whole machine: the agent that moves next takes one atomic step (`00_scope.md` R8,
R9). -/

namespace Sys2Proof.Machine

/-- A PE step, if one is enabled: `exec` of the instruction that `fetch` gives. Otherwise nothing changes (R133, last
row; log 6). -/
def peStep (s : State) : Host.Outcome State Fault Refusal :=
  match fetch s with
  | some (i, t) => exec i t
  | none => .next s

/-- The step of the agent that an event names. -/
def runEvent (e : Event) (s : State) : Host.Outcome State Fault Refusal :=
  match e with
  | .hostSend b => .next (hostSend b s)
  | .hostRead n => .next (hostRead n s)
  | .pe => peStep s
  | .tick => .next (tick s)
  | .reset => .next (powerUp s)

/-- One step: the environment's next event, or, where it lists none, a PE step if one is enabled and a TICK step
otherwise (log 6). -/
def step (s : State) : Host.Outcome State Fault Refusal :=
  match s.inputs with
  | e :: _ => runEvent e (dropInput s)
  | [] => if peEnabled s then peStep s else .next (tick s)

/-- `s` with the instruction of a table word where PE takes its next command byte from, under the state's own `OPC`
and VP (log 7). -/
def State.withFetchWord (s : State) (nbits w : Nat) : State :=
  placeCommand s (tableBytes s.cfg.opc s.cfg.vp nbits w)

end Sys2Proof.Machine
end

