-- ==== Sys2Proof/Safety.lean ====
section
/-! DEFINITION. What the claims call a good state: the invariants that the spec states of its own state
(`10_state.md`), one predicate for each component, so that a step that leaves a component alone keeps its predicate.
Every step keeps them from every good state; reset is good. -/

namespace Sys2Proof.Machine

/-- The Display Buffer (R30, R31): "occupancy <= capacity", the head a slot, every column VP bits wide; the memory is
in its canonical form (log 12). -/
structure BufferOk (c : Config) (d : DisplayBuffer) : Prop where
  head  : d.head < c.cap
  count : d.count ≤ c.cap
  mem   : Memory.wf c.vp c.cap d.mem

/-- Registers 3 and 4 hold legal values (R23, R24). -/
structure RegistersOk (c : Config) (r : RegBank) : Prop where
  aspectLow  : c.aspectMin.toNat ≤ r.aspect.toNat
  aspectHigh : r.aspect.toNat ≤ c.aspectMax.toNat
  duty       : r.duty.toNat ≤ c.dutyMax.toNat

/-- `DIR_DELTA * n mod 8`, the phase after `n` steps from phase 0 (`42_stepper_sequencer.md` R173). -/
def phaseAfter (d : Direction) (n : Nat) : Nat :=
  match d with
  | .plusOne => n % 8
  | .minusOne => (8 - n % 8) % 8

/-- The stepper (R34, R173): the pins show the phase's table entry, and the phase follows the step count. -/
structure StepperOk (c : Config) (st : Stepper) : Prop where
  step  : st.step < c.rs
  motor : st.motor = c.motorStates.getD st.phase.val 0
  phase : st.phase.val = phaseAfter c.dirDelta st.step

/-- The current column and the LED driver (R32, R33, R42): VP bits wide, and the driver holds the current column. -/
structure DisplayOk (c : Config) (cur led : Col) : Prop where
  width : cur.length = c.vp
  shown : led = cur

/-- The generator (R35, R42, `45_automaton_generator.md` R234): its rows are VP bits wide, its frame count in range. -/
structure AutomatonOk (c : Config) (a : Automaton) : Prop where
  row    : a.row.length = c.vp
  prev   : a.prev.length = c.vp
  frames : a.frames ≤ c.af

/-- The parser (R37): in PAYLOAD a command that has a payload is in progress, and the bytes received and still to
receive add up to its length; in WAIT_SPACE a whole column waits; in WAIT_EMPTY a FLUSH_BUFFER does. -/
structure EngineOk (c : Config) (e : Engine) : Prop where
  buf       : e.buf.length ≤ max (colBytes c.vp) 2
  payload   : e.state = .payload → 0 < e.need ∧
    ((e.op = c.opc.pushLine ∧ e.buf.length + e.need = colBytes c.vp) ∨
      (e.op = c.opc.regWrite ∧ e.buf.length + e.need = 2))
  waitSpace : e.state = .waitSpace → e.op = c.opc.pushLine ∧ e.buf.length = colBytes c.vp
  waitEmpty : e.state = .waitEmpty → e.op = c.opc.flushBuffer

/-- A good state. `idle` is the idle detector's range (R36); `one` says that an active generator never has more than
one column in the buffer (`45_automaton_generator.md` R240). -/
structure GoodState (s : State) : Prop where
  buffer    : BufferOk s.cfg s.db
  registers : RegistersOk s.cfg s.reg
  stepper   : StepperOk s.cfg s.st
  display   : DisplayOk s.cfg s.cur s.led
  automaton : AutomatonOk s.cfg s.au
  engine    : EngineOk s.cfg s.pe
  idle      : s.idleCnt ≤ s.cfg.idleColumns
  one       : s.au.active = true → s.db.count ≤ 1

end Sys2Proof.Machine
end

