-- ==== Sys2Proof/WellFormed.lean ====
section
/-! DEFINITION. Which commands a host may put on the wire. Every `Instr` is well-formed: its only field is a nibble,
and every immediate value of every opcode is legal (`30_encoding.md` R95). What can be wrong is a command's payload,
"exactly `VERTICAL_PIXELS/8` bytes" for PUSH_LINE (`20_memory.md` R65) and exactly two for REG_WRITE
(`70_reset_and_hazards.md` R297). -/

namespace Sys2Proof

/-- The payload has the length that the opcode fixes (R93, R65, R297). -/
def Command.WellFormed (vp : Nat) (c : Command) : Bool := c.payload.length == c.instr.payloadLen vp

/-- Every command of a program is well-formed. -/
def programWellFormed (vp : Nat) (cs : List Command) : Bool := cs.all (Command.WellFormed vp)

end Sys2Proof
end

