-- ==== Sys2Proof/Certificates/Slice0/Obligations.lean ====
section
/-! DEFINITION. The statements for the provers. Each docstring says which rules of spec/ it formalises, and where it
rests on a decision that the spec marks as its own ("D<n>") or on a choice of the model ("log <n>"). -/

open Sys2Proof Sys2Proof.Machine

/-! ### Encoding (`30_encoding.md`, `20_memory.md`) -/

/-- R90, R94: for every injective `OPC`, decoding an encoded instruction gives it back, with every immediate, and
leaves the rest of the stream. Which unassigned nibble belongs to which reserved row is the model's choice (log 2). -/
def Obligations.DecodeEncodeAgree : Prop :=
  ∀ (c : Config) (i : Instr) (rest : List Byte), decode c.opc (encode c.opc i ++ rest) = .ok (i, rest)

/-- R90, R95: every command byte is the encoding of the instruction that it decodes to: no byte is refused and no
bit of it is dropped. Which unassigned nibble belongs to which reserved row is the model's choice (log 2). -/
def Obligations.EncodeDecodeAgree : Prop :=
  ∀ (c : Config) (b : Byte), encodeByte c.opc (decodeByte c.opc b) = b

/-- R93, R65: a well-formed command on the wire is read back whole, payload included, and nothing behind it is. -/
def Obligations.WholeCommandRoundTrip : Prop :=
  ∀ (c : Config) (cmd : Command) (rest : List Byte), cmd.WellFormed c.vp = true →
    decodeCommand c.opc c.vp (encodeCommand c.opc cmd ++ rest) = .ok (cmd, rest)

/-- R91, R93: the payload length is told by the opcode nibble alone: COLBYTES for PUSH_LINE, 2 for REG_WRITE, none
for every other nibble, reserved ones included. -/
def Obligations.PayloadLengthFromOpcodeAlone : Prop :=
  ∀ (c : Config) (b : Byte), (decodeByte c.opc b).payloadLen c.vp =
    if opcodeField b = c.opc.pushLine then c.vp / 8 else if opcodeField b = c.opc.regWrite then 2 else 0

/-- The encoding examples of `30_encoding.md` section 4 and the decode vectors of `95_test_vectors.md` section 2.1,
under the default `OPC` (the spec's decision D1) and VP = 16. -/
def Obligations.SpecWordsDecode : Prop :=
  decode Opc.inListOrder [0x00] = .ok (.noOp 0, []) ∧
  decode Opc.inListOrder [0x1C] = .ok (.pushLine 0xC, []) ∧
  decode Opc.inListOrder [0x2A] = .ok (.flushBuffer 0xA, []) ∧
  decode Opc.inListOrder [0x30] = .ok (.clearBuffer 0, []) ∧
  decode Opc.inListOrder [0x45] = .ok (.regRead 5, []) ∧
  decode Opc.inListOrder [0x53] = .ok (.regWrite 3, []) ∧
  decode Opc.inListOrder [0x67] = .ok (.ping 7, []) ∧
  decode Opc.inListOrder [0x70] = .ok (.reserved7 0, []) ∧
  decode Opc.inListOrder [0xF3] = .ok (.reservedF 3, []) ∧
  decodeCommand Opc.inListOrder 16 [0x10, 0x80, 0x01, 0x67] =
    .ok ({ instr := .pushLine 0, payload := [0x80, 0x01] }, [0x67]) ∧
  decodeCommand Opc.inListOrder 16 [0x54, 0x00, 0x80] = .ok ({ instr := .regWrite 4, payload := [0x00, 0x80] }, [])

/-- R63: with `k = i div 8` and `j = i mod 8`, LED `i` of the column of a payload is bit `7 - j` of payload byte
`k`, and the column has eight LEDs for each byte. -/
def Obligations.ColumnBitOrder : Prop :=
  ∀ (bytes : List Byte), (columnOperand bytes).length = 8 * bytes.length ∧
    ∀ i, i < 8 * bytes.length →
      (columnOperand bytes).getD i false = (bytes.getD (i / 8) 0#8).getLsbD (7 - i % 8)

/-- R13: `pack` and `unpack` are inverse to each other on columns of whole bytes. -/
def Obligations.PackUnpackInverse : Prop :=
  (∀ bytes : List Byte, pack (unpack bytes) = bytes) ∧
  ∀ (c : Config) (col : Col), col.length = c.vp → unpack (pack col) = col ∧ (pack col).length = c.vp / 8

/-! ### Steps of the agents (`00_scope.md` R8, R9; `40_protocol_engine.md` R120 to R122) -/

/-- R121: in IDLE, on PE's turn, the step runs the instruction that the front of `rx` decodes to; around `exec` it
takes the command byte from `rx`, stores its two fields and empties `pe.buf`. That PE also moves when the environment
lists no event is the model's choice (log 6). -/
def Obligations.StepRunsDecodedInstruction : Prop :=
  ∀ (s : State) (b : Byte) (rest : List Byte) (i : Instr),
    s.pe.state = .idle → s.rx = b :: rest → decode s.cfg.opc s.rx = .ok (i, rest) →
    (s.inputs = [] ∨ s.inputs.head? = some .pe) →
    step s = exec i { s with
      rx := rest
      pe := { s.pe with op := b.extractLsb' 4 4, imm := b.extractLsb' 0 4, buf := [] }
      inputs := s.inputs.tail }

/-- R120: outside IDLE, where a PE step is enabled, PE's turn goes on with the command in progress, the one with the
stored opcode and immediate; the next command byte is not looked at. The turn without an event is log 6. -/
def Obligations.StepContinuesCommandInProgress : Prop :=
  ∀ (s : State), s.pe.state ≠ .idle →
    (s.pe.state = .payload → s.rx ≠ []) → (s.pe.state = .waitSpace → s.db.count < s.cfg.cap) →
    (s.pe.state = .waitEmpty → s.db.count = 0) →
    (s.inputs = [] ∨ s.inputs.head? = some .pe) →
    step s = exec (decodeByte s.cfg.opc (s.pe.op ++ s.pe.imm)) { s with inputs := s.inputs.tail }

/-- R120, R133 last row: where no PE step is enabled, PE's turn changes nothing (log 6): no byte is taken while the
engine waits. -/
def Obligations.EngineWaitsUntilEnabled : Prop :=
  ∀ (s : State) (es : List Event), s.inputs = .pe :: es →
    ((s.pe.state = .idle ∧ s.rx = []) ∨ (s.pe.state = .payload ∧ s.rx = []) ∨
      (s.pe.state = .waitSpace ∧ s.cfg.cap ≤ s.db.count) ∨ (s.pe.state = .waitEmpty ∧ s.db.count ≠ 0)) →
    step s = .next { s with inputs := es }

/-- R176, R267: a tick that occurs is taken in every state, whatever the engine and the generator are doing. -/
def Obligations.TickIsNeverBlocked : Prop :=
  ∀ (s : State) (es : List Event), s.inputs = .tick :: es → step s = .next (tick { s with inputs := es })

/-- R8, R10: HOST appends a byte at the back of `rx`, or removes bytes from the front of `tx` (log 8), and does
nothing else. -/
def Obligations.HostOnlyMovesStreamBytes : Prop :=
  (∀ (s : State) (es : List Event) (b : Byte), s.inputs = .hostSend b :: es →
    step s = .next { s with rx := s.rx ++ [b], inputs := es }) ∧
  (∀ (s : State) (es : List Event) (n : Nat), s.inputs = .hostRead n :: es →
    step s = .next { s with tx := s.tx.drop n, inputs := es })

/-- R290 and the reset table of `10_state.md` (whose values are the spec's decisions, D31): the reset input puts every
element at its reset value, whatever it was; the configuration, the environment's events and the count of free values
are no state of the core (log 9). The values of `db.mem`, `au.prev`, `pe.op` and `pe.imm` are left out here: the spec
calls them unspecified. -/
def Obligations.ResetRestoresEveryElement : Prop :=
  ∀ (s : State) (es : List Event), s.inputs = .reset :: es → ∃ t, step s = .next t ∧
    t.cfg = s.cfg ∧ t.inputs = es ∧ t.draws = s.draws ∧
    t.reg.aspect = s.cfg.aspectReset ∧ t.reg.duty = s.cfg.dutyReset ∧
    t.db.count = 0 ∧ t.db.head = 0 ∧
    t.cur = List.replicate s.cfg.vp false ∧ t.led = List.replicate s.cfg.vp false ∧ t.oe = false ∧
    t.st.phase = 0 ∧ t.st.step = 0 ∧ t.st.motor = s.cfg.motorStates.getD 0 0 ∧
    t.au.active = false ∧ t.au.ridx = 0 ∧ t.au.row = seed s.cfg.vp ∧ t.au.frames = 0 ∧
    t.au.prevValid = false ∧ t.au.stuck = false ∧ t.idleCnt = 0 ∧
    t.pe.state = .idle ∧ t.pe.need = 0 ∧ t.pe.buf = [] ∧ t.rx = [] ∧ t.tx = []

/-- `95_test_vectors.md` E13 to E18 (`REF`, the model's reset configuration, log 1): the registers right after
reset. -/
def Obligations.ResetRegistersOfRef : Prop :=
  (readReg 0 State.reset).1 = 0x0010 ∧ (readReg 1 State.reset).1 = 0x000A ∧ (readReg 2 State.reset).1 = 0x0258 ∧
  (readReg 3 State.reset).1 = 0x0100 ∧ (readReg 4 State.reset).1 = 0x0100 ∧ (readReg 5 State.reset).1 = 0x0800

/-- R6: a configuration that violates a constraint of the parameter table is refused, and one that meets them all
boots, with those parameters, into the reset state. -/
def Obligations.BootRefusesIllegalConfigurations : Prop :=
  ∀ c : RawConfig,
    let legal :=
      (c.vp % 8 = 0 ∧ 8 ≤ c.vp ∧ c.vp ≤ 65535) ∧ (1 ≤ c.hp ∧ c.hp ≤ 65535) ∧ (1 ≤ c.rpm ∧ c.rpm ≤ 65535) ∧
      (c.rs % 8 = 0 ∧ 8 ≤ c.rs) ∧ (1 ≤ c.cap ∧ c.cap ≤ 255) ∧ 1 ≤ c.pf ∧ (1 ≤ c.spf ∧ c.hp * c.pf * c.spf = c.rs) ∧
      c.motorStates.length = 8 ∧ 1 ≤ c.af ∧ (1 ≤ c.amf ∧ c.amf ≤ c.af) ∧ c.opc.assigned.Nodup ∧
      (1 ≤ c.aspectMin.toNat ∧ c.aspectMin.toNat ≤ 0x100 ∧ 0x100 ≤ c.aspectMax.toNat ∧
        1 ≤ c.pf * c.aspectMin.toNat / 256) ∧
      (c.aspectMin.toNat ≤ c.aspectReset.toNat ∧ c.aspectReset.toNat ≤ c.aspectMax.toNat) ∧
      c.dutyReset.toNat ≤ c.dutyMax.toNat ∧ 1 ≤ c.idleColumns
    (¬ legal → State.boot c = .refused .invalidConfig) ∧
    (legal → ∃ k : Config, k.toRawConfig = c ∧ State.boot c = .next (State.resetOf k))

/-- R260, R176: no step of any agent, in any state, faults or is refused. -/
def Obligations.EveryStepAnswersNext : Prop :=
  ∀ s : State, ∃ t, step s = .next t

/-! ### The commands, one by one (`40_protocol_engine.md`)

That the immediate of NO_OP, PUSH_LINE, FLUSH_BUFFER and CLEAR_BUFFER is ignored, and that a reserved command byte has
no payload, is the spec's decision D10; the statements are for every immediate. -/

/-- R123: whatever the immediate, NO_OP has no payload, changes no state and answers nothing; its default bytes are
`0x0i`; its DISPATCH consumes the command byte (and latches its two fields, as R121 says of every command) and leaves
the parser in IDLE. The immediate is the spec's decision D10; that `exec` has no effect in every other parser state too,
where no run runs a NO_OP, is log 5. -/
def Obligations.NoOpHasNoEffect : Prop :=
  (∀ (imm : Nibble), decodeByte Opc.inListOrder (0x0#4 ++ imm) = .noOp imm ∧
    (∀ vp, (Instr.noOp imm).payloadLen vp = 0) ∧ ∀ s : State, exec (.noOp imm) s = .next s) ∧
  ∀ (s : State) (b : Byte) (rest : List Byte) (es : List Event),
    s.pe.state = .idle → s.rx = b :: rest → s.inputs = .pe :: es → b.extractLsb' 4 4 = s.cfg.opc.noOp →
    step s = .next { s with
      rx := rest, inputs := es, pe := { s.pe with op := b.extractLsb' 4 4, imm := b.extractLsb' 0 4, buf := [] } }

/-- R131: a command byte whose high nibble `OPC` assigns to no command is treated as NO_OP: no payload, no state
change, no response; one byte is consumed, nothing else. Under the default, those are 0x70 to 0xFF. The
missing payload is the spec's decision D10; R131 is about DISPATCH, in IDLE, and that `exec` has no effect in every other
parser state too is log 5. -/
def Obligations.UnassignedOpcodeIsIgnored : Prop :=
  (∀ (c : Config) (b : Byte), b.extractLsb' 4 4 ∉ c.opc.assigned →
    (decodeByte c.opc b).payloadLen c.vp = 0 ∧ ∀ s : State, exec (decodeByte c.opc b) s = .next s) ∧
  (∀ (s : State) (b : Byte) (rest : List Byte) (es : List Event),
    s.pe.state = .idle → s.rx = b :: rest → s.inputs = .pe :: es → b.extractLsb' 4 4 ∉ s.cfg.opc.assigned →
    step s = .next { s with
      rx := rest, inputs := es, pe := { s.pe with op := b.extractLsb' 4 4, imm := b.extractLsb' 0 4, buf := [] } }) ∧
  ∀ b : Byte, b.extractLsb' 4 4 ∉ Opc.inListOrder.assigned ↔ 0x70 ≤ b.toNat

/-- R131 for each reserved row of the opcode table (which nibble is which row: log 2). The rule is about DISPATCH, in
IDLE; that `exec` has no effect in every other parser state too is log 5. -/
def Obligations.ReservedRowsHaveNoEffect : Prop :=
  ∀ (imm : Nibble) (s : State),
    exec (.reserved7 imm) s = .next s ∧ exec (.reserved8 imm) s = .next s ∧ exec (.reserved9 imm) s = .next s ∧
    exec (.reservedA imm) s = .next s ∧ exec (.reservedB imm) s = .next s ∧ exec (.reservedC imm) s = .next s ∧
    exec (.reservedD imm) s = .next s ∧ exec (.reservedE imm) s = .next s ∧ exec (.reservedF imm) s = .next s

/-- R130: PING answers one byte, version nibble 0x1 above the echo nibble, and changes nothing else; its default bytes
are `0x6e`, echo 0 answers 0x10, echo 0xF answers 0x1F and echo 7 answers 0x17. The rule puts this inside DISPATCH, in
IDLE; that `exec` does the same in every other parser state, which no PING reaches, is log 5. -/
def Obligations.PingEchoesItsNibble : Prop :=
  (∀ (e : Nibble), decodeByte Opc.inListOrder (0x6#4 ++ e) = .ping e ∧ (∀ vp, (Instr.ping e).payloadLen vp = 0) ∧
    ∀ s : State, exec (.ping e) s = .next { s with tx := s.tx ++ [0x1#4 ++ e] }) ∧
  (0x1#4 ++ 0x0#4 : Byte) = 0x10 ∧ (0x1#4 ++ 0xF#4 : Byte) = 0x1F ∧ (0x1#4 ++ 0x7#4 : Byte) = 0x17

/-- R127: CLEAR_BUFFER (default bytes `0x3i`, no payload) empties the buffer, whoever pushed the columns, and changes
nothing else: `cur`, `led`, `oe`, the LED event trace, the registers, the generator, the idle detector, the parser and
`tx` stay; no slot's content changes; on an empty buffer nothing changes at all. The rule puts this inside DISPATCH, in
IDLE; that `exec` does the same in every other parser state, which no CLEAR_BUFFER reaches, is log 5. -/
def Obligations.ClearBufferEmptiesOnlyTheBuffer : Prop :=
  ∀ (imm : Nibble) (s : State), decodeByte Opc.inListOrder (0x3#4 ++ imm) = .clearBuffer imm ∧
    (∀ vp, (Instr.clearBuffer imm).payloadLen vp = 0) ∧ ∃ t, exec (.clearBuffer imm) s = .next t ∧
    t = { s with db := t.db } ∧ t.db.count = 0 ∧ t.queue = [] ∧
    (∀ slot, Memory.read t.cfg.vp t.db.mem slot = Memory.read s.cfg.vp s.db.mem slot) ∧
    (s.db.head < s.cfg.cap → t.db.head < s.cfg.cap ∧ (s.db.count = 0 → t = s))

/-- R128, R211: REG_READ (default bytes `0x4r`, no payload) answers exactly two bytes, the value's high byte first.
Indices 0 to 5 read VP, HP, RPM (the parameters themselves: the spec's decision D7), the two stored registers, and
capacity with occupancy; a reserved index reads some value, of which nothing is said. No state changes but `tx` (and,
for a reserved index, the model's count of free values, log 10). The rule puts this inside DISPATCH, in IDLE; that `exec`
does the same in every other parser state, which no REG_READ reaches, is log 5. -/
def Obligations.RegReadAnswersTheRegister : Prop :=
  ∀ (r : Nibble) (s : State), decodeByte Opc.inListOrder (0x4#4 ++ r) = .regRead r ∧
    (∀ vp, (Instr.regRead r).payloadLen vp = 0) ∧ ∃ (v : Half) (d : Nat),
    exec (.regRead r) s =
      .next { s with tx := s.tx ++ [v.extractLsb' 8 8, v.extractLsb' 0 8], draws := d } ∧
    (r = 0 → v = BitVec.ofNat 16 s.cfg.vp) ∧ (r = 1 → v = BitVec.ofNat 16 s.cfg.hp) ∧
    (r = 2 → v = BitVec.ofNat 16 s.cfg.rpm) ∧ (r = 3 → v = s.reg.aspect) ∧ (r = 4 → v = s.reg.duty) ∧
    (r = 5 → v.extractLsb' 8 8 = BitVec.ofNat 8 s.cfg.cap ∧ v.extractLsb' 0 8 = BitVec.ofNat 8 s.db.count) ∧
    (r.toNat ≤ 5 → d = s.draws)

/-- R121, R129: DISPATCH of REG_WRITE, for every register index, only asks for two payload bytes. -/
def Obligations.RegWriteAsksForTwoBytes : Prop :=
  ∀ (r : Nibble) (s : State), s.pe.state = .idle →
    exec (.regWrite r) s = .next { s with pe := { s.pe with need := 2, state := .payload } }

/-- R122: COLLECT of a byte that is not the last one stores it in `pe.buf` and does nothing else, whatever its value:
for REG_WRITE and for PUSH_LINE (the spec's decision D11). -/
def Obligations.CollectStoresPayloadByte : Prop :=
  ∀ (s : State) (p : Byte) (rest : List Byte), s.pe.state = .payload → s.rx = p :: rest → 1 < s.pe.need →
    (∀ r, exec (.regWrite r) s =
      .next { s with rx := rest, pe := { s.pe with buf := s.pe.buf ++ [p], need := s.pe.need - 1 } }) ∧
    (∀ imm, exec (.pushLine imm) s =
      .next { s with rx := rest, pe := { s.pe with buf := s.pe.buf ++ [p], need := s.pe.need - 1 } })

/-- R212 (and R129 for the step that does it): the step that takes REG_WRITE's second payload byte writes the register
and goes back to IDLE: register 3 is clamped to [ASPECT_MIN, ASPECT_MAX], register 4 to at most DUTY_MAX, on the raw
unsigned value, first payload byte high; every other index changes no register. No response, nothing else changes. -/
def Obligations.RegWriteCompletes : Prop :=
  ∀ (r : Nibble) (s : State) (p0 p1 : Byte) (rest : List Byte),
    s.pe.state = .payload → s.pe.buf = [p0] → s.pe.need = 1 → s.rx = p1 :: rest →
    ∃ reg : RegBank,
      exec (.regWrite r) s = .next { s with
        reg := reg, rx := rest, pe := { s.pe with state := .idle, need := 0, buf := [p0, p1] } } ∧
      reg.aspect.toNat = (if r = 3 then
        max s.cfg.aspectMin.toNat (min (256 * p0.toNat + p1.toNat) s.cfg.aspectMax.toNat) else s.reg.aspect.toNat) ∧
      reg.duty.toNat = (if r = 4 then min (256 * p0.toNat + p1.toNat) s.cfg.dutyMax.toNat else s.reg.duty.toNat)

/-- R213: writing registers 0, 1, 2, 5 or a reserved index is a silent no-op: a read of 0, 1, 2 or 5 after it gives
what it gave before, and register 0 reads as one constant of the configuration whatever was written. -/
def Obligations.ReadOnlyRegistersIgnoreWrites : Prop :=
  ∀ (i : Nibble) (v : Half) (s : State), i ≠ 3 → i ≠ 4 →
    writeReg i v s = s ∧
    (∀ j : Nibble, (j = 0 ∨ j = 1 ∨ j = 2 ∨ j = 5) → readReg j (writeReg i v s) = readReg j s) ∧
    ∀ t : State, t.cfg = s.cfg → (readReg 0 (writeReg i v t)).1 = (readReg 0 s).1

/-- R121, R124: DISPATCH of PUSH_LINE only asks for COLBYTES payload bytes. -/
def Obligations.PushLineAsksForAColumn : Prop :=
  ∀ (imm : Nibble) (s : State), s.pe.state = .idle →
    exec (.pushLine imm) s = .next { s with pe := { s.pe with need := s.cfg.vp / 8, state := .payload } }

/-- R122: the last payload byte of a PUSH_LINE arms the wait for space; nothing is pushed and nothing answered yet
(payload first: the spec's decision D11). -/
def Obligations.PushLineArmsTheWait : Prop :=
  ∀ (imm : Nibble) (s : State) (p : Byte) (rest : List Byte),
    s.pe.state = .payload → s.rx = p :: rest → s.pe.need = 1 →
    exec (.pushLine imm) s =
      .next { s with rx := rest, pe := { s.pe with state := .waitSpace, buf := s.pe.buf ++ [p], need := 0 } }

/-- R124, R151, R98, R238: with a free slot, PUSH-COMPLETE stores the collected column behind all others, at slot
`db.tail` and nowhere else, suspends the generator, zeroes the idle count, answers one byte, the free slots left
(never CAP; 0 when the buffer became full), and goes back to IDLE. Nothing else changes. -/
def Obligations.PushLineCompletes : Prop :=
  ∀ (imm : Nibble) (s : State), BufferOk s.cfg s.db → s.pe.state = .waitSpace → s.db.count < s.cfg.cap →
    ∃ (b : Byte) (mem : Memory),
      exec (.pushLine imm) s = .next { s with
        db := { mem := mem, head := s.db.head, count := s.db.count + 1 }
        au := { s.au with active := false }
        idleCnt := 0
        tx := s.tx ++ [b]
        pe := { s.pe with state := .idle } } ∧
      b.toNat = s.cfg.cap - (s.db.count + 1) ∧ b.toNat < s.cfg.cap ∧
      Memory.read s.cfg.vp mem ((s.db.head + s.db.count) % s.cfg.cap) = unpack s.pe.buf ∧
      (∀ slot, slot ≠ (s.db.head + s.db.count) % s.cfg.cap →
        Memory.read s.cfg.vp mem slot = Memory.read s.cfg.vp s.db.mem slot) ∧
      DisplayBuffer.q s.cfg.vp s.cfg.cap { mem := mem, head := s.db.head, count := s.db.count + 1 } =
        s.queue ++ [unpack s.pe.buf]

/-- R124, R125, R264: with the buffer full a waiting PUSH_LINE changes nothing and answers nothing. -/
def Obligations.PushLineWaitsForSpace : Prop :=
  ∀ (imm : Nibble) (s : State), s.pe.state = .waitSpace → s.db.count = s.cfg.cap →
    exec (.pushLine imm) s = .next s

/-- R121, R126: DISPATCH of FLUSH_BUFFER only moves the parser to WAIT_EMPTY. -/
def Obligations.FlushStartsToWait : Prop :=
  ∀ (imm : Nibble) (s : State), s.pe.state = .idle →
    exec (.flushBuffer imm) s = .next { s with pe := { s.pe with state := .waitEmpty } }

/-- R126, R98: with the buffer empty, FLUSH-COMPLETE answers one byte, of which nothing is said (a free value, log 10),
and goes back to IDLE; nothing else changes. -/
def Obligations.FlushCompletesWhenEmpty : Prop :=
  ∀ (imm : Nibble) (s : State), s.pe.state = .waitEmpty → s.db.count = 0 →
    ∃ b : Byte, exec (.flushBuffer imm) s = .next { s with
      tx := s.tx ++ [b], draws := s.draws + 1, pe := { s.pe with state := .idle } }

/-- R126, R72: while the buffer holds a column a waiting FLUSH_BUFFER changes nothing and answers nothing. -/
def Obligations.FlushWaitsWhileColumnsRemain : Prop :=
  ∀ (imm : Nibble) (s : State), s.pe.state = .waitEmpty → s.db.count ≠ 0 → exec (.flushBuffer imm) s = .next s

/-- R129: a whole REG_WRITE (default bytes `0x5r`, two payload bytes), run as three steps of PE: the command byte and
both payload bytes leave `rx` for every register index, register 3 or 4 holds the clamped value, first payload byte
high, every other index changes no register, the engine is IDLE again, nothing is answered and nothing else but the
parser's own fields changes. -/
def Obligations.WholeRegWrite : Prop :=
  (∀ r : Nibble, decodeByte Opc.inListOrder (0x5#4 ++ r) = .regWrite r ∧ ∀ vp, (Instr.regWrite r).payloadLen vp = 2) ∧
  ∀ (s : State) (cmd p0 p1 : Byte) (rest : List Byte) (es : List Event) (r : Nibble),
    s.inputs = .pe :: .pe :: .pe :: es → s.pe.state = .idle → s.rx = cmd :: p0 :: p1 :: rest →
    cmd.extractLsb' 4 4 = s.cfg.opc.regWrite → cmd.extractLsb' 0 4 = r →
    ∃ t, Host.Core.run Sys2Proof.core 3 s = .next t ∧
      t.rx = rest ∧ t.pe.state = .idle ∧
      t.reg.aspect.toNat = (if r = 3 then
        max s.cfg.aspectMin.toNat (min (256 * p0.toNat + p1.toNat) s.cfg.aspectMax.toNat) else s.reg.aspect.toNat) ∧
      t.reg.duty.toNat = (if r = 4 then min (256 * p0.toNat + p1.toNat) s.cfg.dutyMax.toNat else s.reg.duty.toNat) ∧
      t = { s with rx := rest, reg := t.reg, pe := t.pe, inputs := es }

/-- R124, R121, R122: a whole PUSH_LINE into a buffer with a free slot, run as COLBYTES + 2 steps of PE: the payload's
column joins the back of the buffer, the free slots are answered, the generator is suspended, the engine is IDLE and
exactly the command's bytes have left `rx` (payload first: the spec's decision D11). -/
def Obligations.WholePushLine : Prop :=
  ∀ (s : State) (cmd : Byte) (payload rest : List Byte) (es : List Event), BufferOk s.cfg s.db →
    s.inputs = List.replicate (s.cfg.vp / 8 + 2) .pe ++ es → s.pe.state = .idle →
    s.rx = cmd :: (payload ++ rest) → payload.length = s.cfg.vp / 8 →
    cmd.extractLsb' 4 4 = s.cfg.opc.pushLine → s.db.count < s.cfg.cap →
    ∃ t, Host.Core.run Sys2Proof.core (s.cfg.vp / 8 + 2) s = .next t ∧
      t.rx = rest ∧ t.pe.state = .idle ∧ t.queue = s.queue ++ [unpack payload] ∧
      t.tx = s.tx ++ [BitVec.ofNat 8 (s.cfg.cap - (s.db.count + 1))] ∧ t.au = { s.au with active := false } ∧
      t = { s with rx := rest, pe := t.pe, db := t.db, tx := t.tx, au := t.au, idleCnt := 0, inputs := es }

/-! ### Frames of the commands -/

/-- R123, R128, R130, R131, R68: NO_OP, REG_READ, PING and the reserved rows change at most `tx` and the model's count
of free values (log 10): no register, no buffer slot, no parser field, no output. The rules put these commands inside
DISPATCH, in IDLE; that the frame holds in every other parser state too is log 5. -/
def Obligations.FrameOfOneByteCommands : Prop :=
  ∀ (i : Instr) (s t : State), i.row ≠ 1 → i.row ≠ 2 → i.row ≠ 3 → i.row ≠ 5 → exec i s = .next t →
    t = { s with tx := t.tx, draws := t.draws } ∧ s.tx <+: t.tx ∧
    ∀ slot, Memory.read t.cfg.vp t.db.mem slot = Memory.read s.cfg.vp s.db.mem slot

/-- R126, R129, and log 5 for the parser states that the command never reaches (FLUSH_BUFFER in PAYLOAD and
WAIT_SPACE, REG_WRITE in WAIT_SPACE and WAIT_EMPTY): in every parser state FLUSH_BUFFER changes at most the parser
state, `tx` and the model's count of free values; REG_WRITE changes at most `rx`, the parser, and the one register of
registers 3 and 4 that it names. No buffer slot changes. -/
def Obligations.FrameOfFlushAndRegWrite : Prop :=
  (∀ (imm : Nibble) (s t : State), exec (.flushBuffer imm) s = .next t →
    t = { s with pe := { s.pe with state := t.pe.state }, tx := t.tx, draws := t.draws } ∧
    ∀ slot, Memory.read t.cfg.vp t.db.mem slot = Memory.read s.cfg.vp s.db.mem slot) ∧
  (∀ (r : Nibble) (s t : State), exec (.regWrite r) s = .next t →
    t = { s with
      rx := t.rx, reg := t.reg, pe := { s.pe with state := t.pe.state, need := t.pe.need, buf := t.pe.buf } } ∧
    (r ≠ 3 → t.reg.aspect = s.reg.aspect) ∧ (r ≠ 4 → t.reg.duty = s.reg.duty) ∧
    ∀ slot, Memory.read t.cfg.vp t.db.mem slot = Memory.read s.cfg.vp s.db.mem slot)

/-- R124, and log 5 for WAIT_EMPTY, which a PUSH_LINE never reaches: in every parser state PUSH_LINE changes at most
`rx`, `tx`, the parser's state, count and buffer, the ring, `au.active` and the idle count; of the buffer's memory at
most the slot `db.tail`. -/
def Obligations.FrameOfPushLine : Prop :=
  ∀ (imm : Nibble) (s t : State), exec (.pushLine imm) s = .next t →
    t = { s with
      rx := t.rx, tx := t.tx, db := t.db, au := { s.au with active := t.au.active }, idleCnt := t.idleCnt
      pe := { s.pe with state := t.pe.state, need := t.pe.need, buf := t.pe.buf } } ∧
    ∀ slot, slot ≠ s.db.tail s.cfg.cap →
      Memory.read t.cfg.vp t.db.mem slot = Memory.read s.cfg.vp s.db.mem slot

/-! ### Display Buffer (`41_display_buffer.md`) -/

/-- R151, R152, R153, R154, R155: the ring behaves as the bounded queue `db.q`, oldest column first: `push` appends
and says true, or, when full, changes nothing and says false; `pop` takes the oldest, or, when empty, changes nothing;
`peek_head` shows the oldest; `clear` empties; `occupancy` is the length. Each keeps the ring's own form, of which the
canonical form of the memory is the model's choice (log 12). -/
def Obligations.BufferIsABoundedQueue : Prop :=
  ∀ (c : Config) (d : DisplayBuffer) (col : Col), BufferOk c d → col.length = c.vp →
    let q := d.q c.vp c.cap
    let push := d.push c.vp c.cap col
    let pop := d.pop c.vp c.cap
    d.occupancy = q.length ∧ d.peekHead c.vp = q.head? ∧
    (q.length = c.cap → push = (false, d)) ∧
    (q.length < c.cap → push.1 = true ∧ push.2.q c.vp c.cap = q ++ [col]) ∧
    (q = [] → pop = (none, d)) ∧
    (∀ x rest, q = x :: rest → pop.1 = some x ∧ pop.2.q c.vp c.cap = rest) ∧
    (d.clear c.cap).q c.vp c.cap = [] ∧
    BufferOk c push.2 ∧ BufferOk c pop.2 ∧ BufferOk c (d.clear c.cap)

/-! ### Stepper Sequencer (`42_stepper_sequencer.md`) -/

/-- R171: every tick, in every state, moves the phase by `DIR_DELTA` modulo 8, drives the pins with the table entry of
the NEW phase, and counts the step up modulo RS. -/
def Obligations.TickStepsTheMotor : Prop :=
  ∀ s : State,
    (tick s).st.phase.val =
      (match s.cfg.dirDelta with
        | .plusOne => (s.st.phase.val + 1) % 8
        | .minusOne => (s.st.phase.val + 7) % 8) ∧
    (tick s).st.motor = s.cfg.motorStates.getD (tick s).st.phase.val 0 ∧
    (tick s).st.step = (s.st.step + 1) % s.cfg.rs

/-- R173 (the document's periodicity property): over RS consecutive ticks, from any position, the phase takes each of
the eight values exactly RS/8 times, and phase and step count return to where they were. -/
def Obligations.StepperPeriodicity : Prop :=
  ∀ s : State, s.st.step < s.cfg.rs →
    (ticks s.cfg.rs s).st.phase = s.st.phase ∧ (ticks s.cfg.rs s).st.step = s.st.step ∧
    ∀ p : Fin 8,
      ((List.range s.cfg.rs).filter (fun k => (ticks (k + 1) s).st.phase == p)).length = s.cfg.rs / 8

/-! ### Scan-Out Renderer (`43_scanout_renderer.md`) -/

/-- The duty and aspect arithmetic of section 4 and section 2 (the spec's decisions D16, D17, D18): after every tick the
output enable says whether the sub-tick lies below `floor(duty * PF / 256)`, the position being the new step count
modulo the column length `max(1, floor(PF * aspect / 256)) * SPF`. It depends on nothing else. -/
def Obligations.DutyGatesTheOutputEnable : Prop :=
  ∀ s : State, (tick s).oe =
    decide ((s.st.step + 1) % s.cfg.rs % (max 1 (s.cfg.pf * s.reg.aspect.toNat / 256) * s.cfg.spf) / s.cfg.spf
      < s.reg.duty.toNat * s.cfg.pf / 256)

/-- `43_scanout_renderer.md` section 2: at aspect ratio 1.0 a column is `PF * SPF = RS / HP` steps long, so a rotation
has exactly HP equal columns (decision D17 for the formula). -/
def Obligations.NominalColumnsDivideTheRotation : Prop :=
  ∀ s : State, s.reg.aspect = 0x0100 →
    csteps s = s.cfg.pf * s.cfg.spf ∧ csteps s = s.cfg.rs / s.cfg.hp ∧ s.cfg.hp * csteps s = s.cfg.rs

/-- R189, R191 (decision D19): at a column boundary with a column in the buffer, the oldest one becomes `cur` and
`led`, and the LED driver sees its bits in LED-index order, LED 0 first, and then one latch. What is left in the buffer
is the rest, and behind it, exactly if the engine is idle and the generator active, the generator's new row
(decisions D21, D32). -/
def Obligations.BoundaryShowsTheOldestColumn : Prop :=
  ∀ (s : State) (c : Col) (rest : List Col), BufferOk s.cfg s.db → s.queue = c :: rest →
    ((s.st.step + 1) % s.cfg.rs) % csteps s = 0 →
    (tick s).cur = c ∧ (tick s).led = c ∧
    (tick s).ledTrace = s.ledTrace ++ (c.map LedEvent.shiftBit ++ [LedEvent.latch]) ∧
    (s.pe.state = .idle ∧ s.au.active = true → (tick s).queue = rest ++ [(tick s).au.row]) ∧
    (¬ (s.pe.state = .idle ∧ s.au.active = true) → (tick s).queue = rest)

/-- R189 (decision D19): a tick that is no boundary, or that finds the buffer empty, leaves `cur` and `led` and causes
no LED event; one that is no boundary leaves the buffer, the generator and the idle count too. -/
def Obligations.OtherTicksHoldTheColumn : Prop :=
  ∀ s : State,
    ((s.db.count = 0 ∨ ((s.st.step + 1) % s.cfg.rs) % csteps s ≠ 0) →
      (tick s).cur = s.cur ∧ (tick s).led = s.led ∧ (tick s).ledTrace = s.ledTrace) ∧
    (((s.st.step + 1) % s.cfg.rs) % csteps s ≠ 0 →
      (tick s).db = s.db ∧ (tick s).au = s.au ∧ (tick s).idleCnt = s.idleCnt)

/-- R268, R171: a tick touches neither the parser, nor the streams, nor the registers, nor the environment's events. -/
def Obligations.TickLeavesTheEngineAlone : Prop :=
  ∀ s : State, (tick s).pe = s.pe ∧ (tick s).rx = s.rx ∧ (tick s).tx = s.tx ∧ (tick s).reg = s.reg ∧
    (tick s).cfg = s.cfg ∧ (tick s).inputs = s.inputs ∧ (tick s).draws = s.draws

/-! ### Automaton Generator (`45_automaton_generator.md`) -/

/-- The elementary transition of section 2 (the circle and the side of "left" are the spec's decision D22, the table
look-up is its general knowledge G2): the new cell `i` is bit `4 l + 2 c + q` of the rule, from the old row. -/
def Obligations.AutomatonTransition : Prop :=
  ∀ (rule : Byte) (row : Col), (caNext rule row).length = row.length ∧
    ∀ i, i < row.length →
      (caNext rule row).getD i false =
        rule.getLsbD (4 * (row.getD (if i = 0 then row.length - 1 else i - 1) false).toNat
          + 2 * (row.getD i false).toNat
          + (row.getD (if i + 1 = row.length then 0 else i + 1) false).toNat)

/-- Sections 3 of the generator (decisions D20, D23, D25): at a boundary that finds the buffer empty with the engine
idle and the generator suspended, the idle count goes up; when it reaches IDLE_COLUMNS the generator becomes active,
keeps its rule, and the seed row is the one column in the buffer. -/
def Obligations.FallbackActivation : Prop :=
  ∀ s : State, BufferOk s.cfg s.db → s.pe.state = .idle → s.au.active = false → s.db.count = 0 →
    s.idleCnt < s.cfg.idleColumns → ((s.st.step + 1) % s.cfg.rs) % csteps s = 0 →
    (s.idleCnt + 1 < s.cfg.idleColumns →
      (tick s).idleCnt = s.idleCnt + 1 ∧ (tick s).au = s.au ∧ (tick s).db = s.db) ∧
    (s.idleCnt + 1 = s.cfg.idleColumns →
      (tick s).idleCnt = 0 ∧ (tick s).queue = [seed s.cfg.vp] ∧ (tick s).au.active = true ∧
      (tick s).au.ridx = s.au.ridx ∧ (tick s).au.row = seed s.cfg.vp ∧ (tick s).au.frames = 1 ∧
      (tick s).au.stuck = false ∧ (tick s).au.prevValid = false)

/-- Section 3 (decisions D24, D25, D26): at a boundary with the engine idle and the generator active, one frame joins
the buffer. If the rule's budget is spent, it is the next rule's seed; else, if the rule has shown nothing, it is the
row as it is; else it is the next generation, and the stuck flag is set if that repeats the row or the row before. -/
def Obligations.ActiveGeneratorShowsTheNextFrame : Prop :=
  ∀ s : State, BufferOk s.cfg s.db → s.pe.state = .idle → s.au.active = true → s.db.count ≤ 1 →
    ((s.st.step + 1) % s.cfg.rs) % csteps s = 0 →
    let spent := s.cfg.af ≤ s.au.frames ∨ (s.au.stuck = true ∧ s.cfg.amf ≤ s.au.frames)
    let nxt := caNext (ruleset.getD s.au.ridx.val 0) s.au.row
    (tick s).queue = [(tick s).au.row] ∧ (tick s).au.active = true ∧ (tick s).idleCnt = s.idleCnt ∧
    (spent → (tick s).au.ridx.val = (s.au.ridx.val + 1) % 17 ∧ (tick s).au.row = seed s.cfg.vp ∧
      (tick s).au.frames = 1 ∧ (tick s).au.stuck = false ∧ (tick s).au.prevValid = false) ∧
    (¬ spent → (tick s).au.ridx = s.au.ridx ∧ (tick s).au.frames = s.au.frames + 1) ∧
    (¬ spent → s.au.frames = 0 → (tick s).au.row = s.au.row ∧ (tick s).au.stuck = s.au.stuck) ∧
    (¬ spent → s.au.frames ≠ 0 →
      (tick s).au.row = nxt ∧ (tick s).au.prev = s.au.row ∧ (tick s).au.prevValid = true ∧
      ((tick s).au.stuck = true ↔
        s.au.stuck = true ∨ nxt = s.au.row ∨ (s.au.prevValid = true ∧ nxt = s.au.prev)))

/-- Section 3 (decision D21): while a command is in progress a tick moves neither the generator nor the idle count, and
never adds a column. A boundary that pops a column with the generator suspended zeroes the idle count (D20). -/
def Obligations.GeneratorPausesForTheEngine : Prop :=
  (∀ s : State, s.pe.state ≠ .idle →
    (tick s).au = s.au ∧ (tick s).idleCnt = s.idleCnt ∧ (tick s).db.count ≤ s.db.count) ∧
  (∀ s : State, s.pe.state = .idle → s.au.active = false → s.db.count ≠ 0 →
    ((s.st.step + 1) % s.cfg.rs) % csteps s = 0 →
    (tick s).idleCnt = 0 ∧ (tick s).au = s.au ∧ (tick s).db.count + 1 = s.db.count)

/-! ### Invariants -/

/-- The reset state of every legal configuration is a good state (the reset values are the spec's decisions, D31; those
of `db.mem` and `au.prev` are the model's, log 11, log 12). -/
def Obligations.ResetIsGood : Prop :=
  GoodState State.reset ∧ ∀ c : Config, GoodState (State.resetOf c)

/-- Every step of every agent keeps the invariants that the spec states of its state: columns VP bits wide (R42), the
ring's bounds (R30, R31), the clamp ranges of registers 3 and 4 (R23, R24), the
pins and the phase (R34, R173), the counters of the generator and the idle detector, at most one column while the
generator is active (R35, R36, R240), the parser's payload count (R37), and `led = cur` (R33); and one of the
model's own, the canonical form of the ring's memory (log 12). -/
def Obligations.EveryStepKeepsTheInvariant : Prop :=
  ∀ s t : State, GoodState s → step s = .next t → GoodState t

/-- R6, R22: the configuration, and with it registers 0, 1 and 2, never changes. -/
def Obligations.ConfigurationIsConstant : Prop :=
  ∀ s t : State, step s = .next t → t.cfg = s.cfg ∧
    ∀ r : Nibble, r.toNat ≤ 2 → (readReg r t).1 = (readReg r s).1

/-! ### The whole machine -/

/-- R176, R272, R61: only TICK (and the reset input) moves the motor, the display and the generator's row; every step of
HOST, and every step of PE, leaves them, and PE at most suspends the generator. PE's turn is its event, or an empty list
of events where a PE step is enabled (log 6). -/
def Obligations.OnlyTicksMoveTheDisplay : Prop :=
  ∀ s t : State,
    ((∃ e es, s.inputs = e :: es ∧ e ≠ .tick ∧ e ≠ .reset) ∨ (s.inputs = [] ∧ peEnabled s = true)) →
    step s = .next t →
    t.st = s.st ∧ t.cur = s.cur ∧ t.led = s.led ∧ t.oe = s.oe ∧ t.ledTrace = s.ledTrace ∧
    t.au = { s.au with active := t.au.active } ∧ (t.au.active = true → s.au.active = true)

/-- R31, R71, R156: what every step does to the buffer's content, so that columns leave in the order in which they
came, and none is lost, duplicated or reordered except by a clear or the reset input. Reset empties it; HOST leaves it.
On PE's turn it is emptied exactly by the DISPATCH of a CLEAR_BUFFER, gains the collected column at the back exactly by
PUSH-COMPLETE, and stays otherwise. On TICK's turn it stays off a column boundary; on one it loses its oldest column to
`cur`, if it has one, and gains the generator's new row at the back exactly if the engine is idle and the generator is
active or starts now (decisions D16, D20, D21). The turn of an empty list of events is log 6. -/
def Obligations.BufferIsFirstInFirstOut : Prop :=
  ∀ s t : State, GoodState s → step s = .next t →
    let peTurn := s.inputs.head? = some .pe ∨ (s.inputs = [] ∧ peEnabled s = true)
    let tickTurn := s.inputs.head? = some .tick ∨ (s.inputs = [] ∧ peEnabled s = false)
    let clears := s.pe.state = .idle ∧ ∃ b rest, s.rx = b :: rest ∧ b.extractLsb' 4 4 = s.cfg.opc.clearBuffer
    let pushes := s.pe.state = .waitSpace ∧ s.db.count < s.cfg.cap
    let generates := s.pe.state = .idle ∧
      (s.au.active = true ∨ (s.db.count = 0 ∧ s.cfg.idleColumns ≤ s.idleCnt + 1))
    let made := if generates then [t.au.row] else []
    (s.inputs.head? = some .reset → t.queue = []) ∧
    (∀ b n, (s.inputs.head? = some (.hostSend b) ∨ s.inputs.head? = some (.hostRead n)) → t.queue = s.queue) ∧
    (peTurn →
      (clears → t.queue = []) ∧ (pushes → t.queue = s.queue ++ [unpack s.pe.buf]) ∧
      (¬ clears → ¬ pushes → t.queue = s.queue)) ∧
    (tickTurn →
      (((s.st.step + 1) % s.cfg.rs) % csteps s ≠ 0 → t.queue = s.queue) ∧
      (((s.st.step + 1) % s.cfg.rs) % csteps s = 0 →
        (s.queue = [] → t.queue = made) ∧
        ∀ c rest, s.queue = c :: rest → t.cur = c ∧ t.queue = rest ++ made))

/-- R40, R38, R70: a PE step takes at most the front byte of `rx` and only appends to `tx`, at most two bytes. PE's turn
is its event, or an empty list of events where a PE step is enabled (log 6). -/
def Obligations.EngineConsumesInOrder : Prop :=
  ∀ s t : State, (s.inputs.head? = some .pe ∨ (s.inputs = [] ∧ peEnabled s = true)) → step s = .next t →
    (t.rx = s.rx ∨ ∃ b, s.rx = b :: t.rx) ∧ s.tx <+: t.tx ∧ t.tx.length ≤ s.tx.length + 2

/-- R43, R25: what a command does and answers does not depend on the display side of the core: run on two states that
differ only in `cur`, `led`, `oe`, the LED events and the stepper, every command gives results that differ only there,
free values being drawn alike in both runs (log 10). What a command does in a parser state that it never reaches is
log 5. -/
def Obligations.CommandsDoNotSeeTheDisplay : Prop :=
  ∀ (i : Instr) (s t : State) (cur led : Col) (oe : Bool) (trace : List LedEvent) (st : Stepper),
    exec i s = .next t →
    exec i { s with cur := cur, led := led, oe := oe, ledTrace := trace, st := st } =
      .next { t with cur := cur, led := led, oe := oe, ledTrace := trace, st := st }

/-- `43_scanout_renderer.md` section 6 and `70_reset_and_hazards.md` section 2: a FLUSH_BUFFER that waits with `n`
columns in the buffer sees it empty after at most `n * csteps` ticks (with no other agent between), and is then
enabled (decisions D16, D17, D21). -/
def Obligations.FlushEndsWithinItsColumns : Prop :=
  ∀ s : State, GoodState s → s.pe.state = .waitEmpty →
    ∃ k, k ≤ s.db.count * csteps s ∧ (ticks k s).db.count = 0 ∧ (ticks k s).pe.state = .waitEmpty ∧
      peEnabled (ticks k s) = true

/-- The same for a PUSH_LINE that waits on a full buffer: within one column's ticks a slot is free and PUSH-COMPLETE
is enabled, the collected payload untouched (decisions D16, D17, D21). -/
def Obligations.PushEndsWithinOneColumn : Prop :=
  ∀ s : State, GoodState s → s.pe.state = .waitSpace →
    ∃ k, k ≤ csteps s ∧ (ticks k s).db.count < s.cfg.cap ∧ (ticks k s).pe = s.pe ∧ peEnabled (ticks k s) = true
end

