-- ==== Sys2Proof/Laws/Config.lean ====
section
/-! SUPPORT. The constraints of `00_scope.md` R6, one lemma each, as every configuration meets them. -/

namespace Sys2Proof.Config

/-- A configuration meets every group of constraints. -/
theorem ok_groups (c : Config) :
    c.geometryOk = true ∧ c.rotationOk = true ∧ c.bufferOk = true ∧ c.automatonOk = true ∧ c.opcOk = true ∧
      c.registersOk = true := by
  have h := c.ok
  simp only [RawConfig.ok, Bool.and_eq_true] at h
  tauto

theorem vp_dvd (c : Config) : c.vp % 8 = 0 := (of_decide_eq_true c.ok_groups.1).1

theorem vp_ge (c : Config) : 8 ≤ c.vp := (of_decide_eq_true c.ok_groups.1).2.1

theorem rs_dvd (c : Config) : c.rs % 8 = 0 := (of_decide_eq_true c.ok_groups.2.1).1

theorem rs_ge (c : Config) : 8 ≤ c.rs := (of_decide_eq_true c.ok_groups.2.1).2.1

theorem pf_pos (c : Config) : 1 ≤ c.pf := (of_decide_eq_true c.ok_groups.2.1).2.2.1

theorem spf_pos (c : Config) : 1 ≤ c.spf := (of_decide_eq_true c.ok_groups.2.1).2.2.2.1

theorem rotation (c : Config) : c.hp * c.pf * c.spf = c.rs := (of_decide_eq_true c.ok_groups.2.1).2.2.2.2.1

theorem motorStates_length (c : Config) : c.motorStates.length = 8 :=
  (of_decide_eq_true c.ok_groups.2.1).2.2.2.2.2

theorem cap_pos (c : Config) : 1 ≤ c.cap := (of_decide_eq_true c.ok_groups.2.2.1).1

theorem cap_le (c : Config) : c.cap ≤ 255 := (of_decide_eq_true c.ok_groups.2.2.1).2

theorem af_pos (c : Config) : 1 ≤ c.af := (of_decide_eq_true c.ok_groups.2.2.2.1).1

theorem idleColumns_pos (c : Config) : 1 ≤ c.idleColumns := (of_decide_eq_true c.ok_groups.2.2.2.1).2.2.2

theorem opc_nodup (c : Config) : c.opc.assigned.Nodup := of_decide_eq_true c.ok_groups.2.2.2.2.1

theorem aspectRange (c : Config) : c.aspectMin.toNat ≤ c.aspectMax.toNat := by
  have h := of_decide_eq_true c.ok_groups.2.2.2.2.2
  omega

theorem aspectReset_range (c : Config) :
    c.aspectMin.toNat ≤ c.aspectReset.toNat ∧ c.aspectReset.toNat ≤ c.aspectMax.toNat := by
  have h := of_decide_eq_true c.ok_groups.2.2.2.2.2
  omega

theorem dutyReset_le (c : Config) : c.dutyReset.toNat ≤ c.dutyMax.toNat :=
  (of_decide_eq_true c.ok_groups.2.2.2.2.2).2.2.2.2.2.2

end Sys2Proof.Config
end

