-- ==== Sys2Proof/Laws/Decode.lean ====
section
/-! SUPPORT. The row table of an injective `OPC`: sixteen different nibbles, one for each row of the opcode table
(`30_encoding.md` R94, R95); and the small lemmas of instruction rows. -/

namespace Sys2Proof

theorem mem_allNibbles (n : Nibble) : n ∈ allNibbles := by
  revert n
  decide

theorem Opc.mem_unassigned {o : Opc} {n : Nibble} : n ∈ o.unassigned ↔ n ∉ o.assigned := by
  simp [Opc.unassigned, mem_allNibbles]

/-- Every nibble has a row. -/
theorem Opc.mem_rows (o : Opc) (n : Nibble) : n ∈ o.rows := by
  by_cases h : n ∈ o.assigned
  · exact List.mem_append_left _ h
  · exact List.mem_append_right _ (Opc.mem_unassigned.mpr h)

/-- No nibble has two rows. -/
theorem Opc.rows_nodup {o : Opc} (h : o.assigned.Nodup) : o.rows.Nodup := by
  refine List.nodup_append.mpr ⟨h, List.Nodup.filter _ (by decide), ?_⟩
  intro a ha b hb e
  subst e
  exact Opc.mem_unassigned.mp hb ha

/-- There are sixteen rows. -/
theorem Opc.rows_length {o : Opc} (h : o.assigned.Nodup) : o.rows.length = 16 := by
  have hp : o.rows.Perm allNibbles :=
    (List.perm_ext_iff_of_nodup (Opc.rows_nodup h) (by decide)).mpr
      (fun n => ⟨fun _ => mem_allNibbles n, fun _ => Opc.mem_rows o n⟩)
  exact hp.length_eq

theorem Instr.row_lt (i : Instr) : i.row < 16 := by cases i <;> simp [Instr.row]

@[simp] theorem Instr.ofRow_row (i : Instr) : Instr.ofRow i.row i.imm = i := by cases i <;> rfl

@[simp] theorem Instr.ofRow_imm (n : Nat) (e : Nibble) : (Instr.ofRow n e).imm = e := by
  unfold Instr.ofRow
  split <;> rfl

theorem Instr.row_ofRow {n : Nat} (h : n < 16) (e : Nibble) : (Instr.ofRow n e).row = n := by
  interval_cases n <;> rfl

/-- The two fields of a byte put together. -/
theorem fields_append (op e : Nibble) : opcodeField (op ++ e) = op ∧ immediateField (op ++ e) = e := by
  revert op e
  decide

theorem append_fields (b : Byte) : opcodeField b ++ immediateField b = b := by
  revert b
  decide

end Sys2Proof
end

