-- ==== Sys2Proof/Laws/Memory.lean ====
section
/-! SUPPORT. The laws of the display-buffer memory: read after write, and that a write keeps the canonical form
`Memory.wf`. -/

namespace Sys2Proof.Machine

@[simp] theorem Memory.read_nil (vp k : Nat) : Memory.read vp [] k = dark vp := rfl

/-- Reset memory has the form. -/
theorem Memory.wf_nil (vp cap : Nat) : Memory.wf vp cap [] := by simp [Memory.wf]

theorem State.resetOf_mem_wf (c : Config) : Memory.wf c.vp c.cap (State.resetOf c).db.mem := Memory.wf_nil _ _

/-- A slot below every listed one reads as the dark column. -/
theorem Memory.read_eq_dark {vp k : Nat} {m : Memory} (h : ∀ p ∈ m, k < p.1) : Memory.read vp m k = dark vp := by
  induction m with
  | nil => rfl
  | cons p m ih =>
    have hp := h p (by simp)
    have hne : p.1 ≠ k := by omega
    simpa [Memory.read, hne] using ih (fun q hq => h q (by simp [hq]))

/-- Another slot reads as before. -/
theorem Memory.read_write_other {vp k j : Nat} (m : Memory) (c : Col) (h : j ≠ k) :
    Memory.read vp (Memory.write vp m k c) j = Memory.read vp m j := by
  induction m with
  | nil =>
    unfold Memory.write
    split <;> simp [Memory.read, Ne.symm h]
  | cons p m ih =>
    simp only [Memory.write]
    split_ifs with h1 h2 h3 h4
    · rfl
    · simp [Memory.read, Ne.symm h]
    · subst h3; simp [Memory.read, Ne.symm h]
    · subst h3; simp [Memory.read, Ne.symm h]
    · simp only [Memory.read, ih]

/-- The written slot reads as what was written. -/
theorem Memory.read_write_same {vp k : Nat} {m : Memory} (c : Col)
    (h : m.Pairwise (fun a b => a.1 < b.1)) : Memory.read vp (Memory.write vp m k c) k = c := by
  induction m with
  | nil =>
    unfold Memory.write
    split
    · next hc => simp [hc]
    · simp [Memory.read]
  | cons p m ih =>
    obtain ⟨hp, hm⟩ := List.pairwise_cons.mp h
    simp only [Memory.write]
    split_ifs with h1 h2 h3 h4
    · subst h2
      refine Memory.read_eq_dark (fun q hq => ?_)
      rcases List.mem_cons.mp hq with rfl | hq
      · exact h1
      · exact lt_trans h1 (hp q hq)
    · simp [Memory.read]
    · subst h3; subst h4
      exact Memory.read_eq_dark hp
    · simp [Memory.read]
    · have hne : p.1 ≠ k := fun e => h3 e.symm
      simp only [Memory.read, hne, if_false]
      exact ih hm

/-- A written memory holds the written entry and entries that were there. -/
theorem Memory.mem_write {vp k : Nat} {m : Memory} {c : Col} {p : Nat × Col}
    (h : p ∈ Memory.write vp m k c) : (p = (k, c) ∧ c ≠ dark vp) ∨ p ∈ m := by
  induction m with
  | nil =>
    unfold Memory.write at h
    split at h
    · simp at h
    · next hc => exact .inl ⟨by simpa using h, hc⟩
  | cons q m ih =>
    simp only [Memory.write] at h
    split_ifs at h with h1 h2 h3 h4
    · exact .inr h
    · rcases List.mem_cons.mp h with h | h
      · exact .inl ⟨h, h2⟩
      · exact .inr h
    · exact .inr (List.mem_cons_of_mem _ h)
    · rcases List.mem_cons.mp h with h | h
      · exact .inl ⟨h, h4⟩
      · exact .inr (List.mem_cons_of_mem _ h)
    · rcases List.mem_cons.mp h with h | h
      · exact .inr (by simp [h])
      · rcases ih h with h | h
        · exact .inl h
        · exact .inr (List.mem_cons_of_mem _ h)

theorem Memory.write_pairwise {vp k : Nat} {m : Memory} {c : Col} (h : m.Pairwise (fun a b => a.1 < b.1)) :
    (Memory.write vp m k c).Pairwise (fun a b => a.1 < b.1) := by
  induction m with
  | nil =>
    unfold Memory.write
    split <;> simp
  | cons q m ih =>
    obtain ⟨hq, hm⟩ := List.pairwise_cons.mp h
    simp only [Memory.write]
    split_ifs with h1 h2 h3 h4
    · exact h
    · refine List.pairwise_cons.mpr ⟨fun p hp => ?_, h⟩
      rcases List.mem_cons.mp hp with rfl | hp
      · exact h1
      · exact lt_trans h1 (hq p hp)
    · exact hm
    · exact List.pairwise_cons.mpr ⟨fun p hp => by simpa [h3] using hq p hp, hm⟩
    · refine List.pairwise_cons.mpr ⟨fun p hp => ?_, ih hm⟩
      rcases Memory.mem_write hp with ⟨rfl, _⟩ | hp
      · show q.1 < k
        omega
      · exact hq p hp

/-- Every write of a column of the machine's width to a slot keeps the canonical form. -/
theorem Memory.wf_write {vp cap k : Nat} {m : Memory} {c : Col} (h : Memory.wf vp cap m) (hk : k < cap)
    (hc : c.length = vp) : Memory.wf vp cap (Memory.write vp m k c) := by
  refine ⟨Memory.write_pairwise h.1, fun p hp => ?_⟩
  rcases Memory.mem_write hp with ⟨rfl, hne⟩ | hp
  · exact ⟨hk, hc, hne⟩
  · exact h.2 p hp

/-- In canonical form every slot reads as a column of the machine's width. -/
theorem Memory.read_length {vp cap k : Nat} {m : Memory} (h : Memory.wf vp cap m) :
    (Memory.read vp m k).length = vp := by
  induction m with
  | nil => simp [dark]
  | cons p m ih =>
    simp only [Memory.read]
    split
    · exact (h.2 p (by simp)).2.1
    · exact ih ⟨(List.pairwise_cons.mp h.1).2, fun q hq => h.2 q (by simp [hq])⟩

end Sys2Proof.Machine
end

