-- ==== Sys2Proof/Laws/DisplayBuffer.lean ====
section
/-! SUPPORT. What each Display Buffer operation does, said once (`41_display_buffer.md`); later proofs cite these
lemmas. -/

namespace Sys2Proof.Machine

@[simp] theorem DisplayBuffer.q_length (vp cap : Nat) (d : DisplayBuffer) : (d.q vp cap).length = d.count := by
  simp [DisplayBuffer.q]

theorem DisplayBuffer.push_full {vp cap : Nat} {d : DisplayBuffer} (c : Col) (h : d.count = cap) :
    d.push vp cap c = (false, d) := by
  simp [DisplayBuffer.push, h]

theorem DisplayBuffer.push_room {vp cap : Nat} {d : DisplayBuffer} (c : Col) (h : d.count < cap) :
    d.push vp cap c =
      (true, { mem := Memory.write vp d.mem (d.tail cap) c, head := d.head, count := d.count + 1 }) := by
  simp [DisplayBuffer.push, Nat.ne_of_lt h]

theorem DisplayBuffer.pop_empty {vp cap : Nat} {d : DisplayBuffer} (h : d.count = 0) : d.pop vp cap = (none, d) := by
  simp [DisplayBuffer.pop, h]

theorem DisplayBuffer.pop_some {vp cap : Nat} {d : DisplayBuffer} (h : d.count ≠ 0) :
    d.pop vp cap =
      (some (Memory.read vp d.mem d.head),
        { mem := d.mem, head := (d.head + 1) % cap, count := d.count - 1 }) := by
  simp [DisplayBuffer.pop, h]

/-- Two occupied positions of the ring, or an occupied one and the tail, are different slots. -/
theorem DisplayBuffer.slot_ne_tail {cap head count k : Nat} (hk : k < count) (hc : count < cap) :
    (head + k) % cap ≠ (head + count) % cap := by
  intro h
  have h2 := (Nat.ModEq.add_left_cancel' head h : k ≡ count [MOD cap])
  rw [Nat.ModEq, Nat.mod_eq_of_lt (by omega), Nat.mod_eq_of_lt hc] at h2
  omega

/-- The occupied content of a ring whose memory changed at the tail only. -/
theorem DisplayBuffer.q_write_tail {vp cap : Nat} {d : DisplayBuffer} (c : Col) (h : d.count < cap)
    (hm : d.mem.Pairwise (fun a b => a.1 < b.1)) :
    DisplayBuffer.q vp cap { mem := Memory.write vp d.mem (d.tail cap) c, head := d.head, count := d.count + 1 } =
      d.q vp cap ++ [c] := by
  simp only [DisplayBuffer.q, List.range_succ, List.map_append, List.map_cons, List.map_nil]
  congr 1
  · refine List.map_congr_left (fun k hk => ?_)
    exact Memory.read_write_other _ _ (DisplayBuffer.slot_ne_tail (List.mem_range.mp hk) h)
  · simp only [DisplayBuffer.tail, Memory.read_write_same c hm]

/-- The content of a ring that holds a column: the head's column first, then what is left after a pop. -/
theorem DisplayBuffer.q_cons {vp cap : Nat} {d : DisplayBuffer} (h : d.count ≠ 0) (hh : d.head < cap) :
    d.q vp cap = Memory.read vp d.mem d.head ::
      DisplayBuffer.q vp cap { mem := d.mem, head := (d.head + 1) % cap, count := d.count - 1 } := by
  obtain ⟨n, hn⟩ := Nat.exists_eq_succ_of_ne_zero h
  simp only [DisplayBuffer.q, hn, Nat.succ_eq_add_one, Nat.add_sub_cancel, List.range_succ_eq_map, List.map_cons,
    List.map_map, Nat.add_zero, Nat.mod_eq_of_lt hh]
  congr 1
  refine List.map_congr_left (fun k _ => ?_)
  simp only [Function.comp, Nat.mod_add_mod]
  congr 2
  omega

end Sys2Proof.Machine
end

