-- ==== Sys2Proof/Laws/State.lean ====
section
/-! SUPPORT. One lemma per field of State per named update, true by `rfl`, so that no later proof unfolds a record
update. -/

namespace Sys2Proof.Machine

section
variable (s : State)

/-! ### emit -/

@[simp] theorem emit_cfg (bs : List Byte) : (s.emit bs).cfg = s.cfg := rfl
@[simp] theorem emit_reg (bs : List Byte) : (s.emit bs).reg = s.reg := rfl
@[simp] theorem emit_db (bs : List Byte) : (s.emit bs).db = s.db := rfl
@[simp] theorem emit_cur (bs : List Byte) : (s.emit bs).cur = s.cur := rfl
@[simp] theorem emit_led (bs : List Byte) : (s.emit bs).led = s.led := rfl
@[simp] theorem emit_oe (bs : List Byte) : (s.emit bs).oe = s.oe := rfl
@[simp] theorem emit_ledTrace (bs : List Byte) : (s.emit bs).ledTrace = s.ledTrace := rfl
@[simp] theorem emit_st (bs : List Byte) : (s.emit bs).st = s.st := rfl
@[simp] theorem emit_au (bs : List Byte) : (s.emit bs).au = s.au := rfl
@[simp] theorem emit_idleCnt (bs : List Byte) : (s.emit bs).idleCnt = s.idleCnt := rfl
@[simp] theorem emit_pe (bs : List Byte) : (s.emit bs).pe = s.pe := rfl
@[simp] theorem emit_rx (bs : List Byte) : (s.emit bs).rx = s.rx := rfl
@[simp] theorem emit_tx (bs : List Byte) : (s.emit bs).tx = s.tx ++ bs := rfl
@[simp] theorem emit_inputs (bs : List Byte) : (s.emit bs).inputs = s.inputs := rfl
@[simp] theorem emit_draws (bs : List Byte) : (s.emit bs).draws = s.draws := rfl

/-! ### drawHalf -/

@[simp] theorem drawHalf_cfg (i : Nibble) : (s.drawHalf i).2.cfg = s.cfg := rfl
@[simp] theorem drawHalf_reg (i : Nibble) : (s.drawHalf i).2.reg = s.reg := rfl
@[simp] theorem drawHalf_db (i : Nibble) : (s.drawHalf i).2.db = s.db := rfl
@[simp] theorem drawHalf_cur (i : Nibble) : (s.drawHalf i).2.cur = s.cur := rfl
@[simp] theorem drawHalf_led (i : Nibble) : (s.drawHalf i).2.led = s.led := rfl
@[simp] theorem drawHalf_oe (i : Nibble) : (s.drawHalf i).2.oe = s.oe := rfl
@[simp] theorem drawHalf_ledTrace (i : Nibble) : (s.drawHalf i).2.ledTrace = s.ledTrace := rfl
@[simp] theorem drawHalf_st (i : Nibble) : (s.drawHalf i).2.st = s.st := rfl
@[simp] theorem drawHalf_au (i : Nibble) : (s.drawHalf i).2.au = s.au := rfl
@[simp] theorem drawHalf_idleCnt (i : Nibble) : (s.drawHalf i).2.idleCnt = s.idleCnt := rfl
@[simp] theorem drawHalf_pe (i : Nibble) : (s.drawHalf i).2.pe = s.pe := rfl
@[simp] theorem drawHalf_rx (i : Nibble) : (s.drawHalf i).2.rx = s.rx := rfl
@[simp] theorem drawHalf_tx (i : Nibble) : (s.drawHalf i).2.tx = s.tx := rfl
@[simp] theorem drawHalf_inputs (i : Nibble) : (s.drawHalf i).2.inputs = s.inputs := rfl
@[simp] theorem drawHalf_draws (i : Nibble) : (s.drawHalf i).2.draws = s.draws + 1 := rfl

/-! ### drawByte -/

@[simp] theorem drawByte_cfg : s.drawByte.2.cfg = s.cfg := rfl
@[simp] theorem drawByte_reg : s.drawByte.2.reg = s.reg := rfl
@[simp] theorem drawByte_db : s.drawByte.2.db = s.db := rfl
@[simp] theorem drawByte_cur : s.drawByte.2.cur = s.cur := rfl
@[simp] theorem drawByte_led : s.drawByte.2.led = s.led := rfl
@[simp] theorem drawByte_oe : s.drawByte.2.oe = s.oe := rfl
@[simp] theorem drawByte_ledTrace : s.drawByte.2.ledTrace = s.ledTrace := rfl
@[simp] theorem drawByte_st : s.drawByte.2.st = s.st := rfl
@[simp] theorem drawByte_au : s.drawByte.2.au = s.au := rfl
@[simp] theorem drawByte_idleCnt : s.drawByte.2.idleCnt = s.idleCnt := rfl
@[simp] theorem drawByte_pe : s.drawByte.2.pe = s.pe := rfl
@[simp] theorem drawByte_rx : s.drawByte.2.rx = s.rx := rfl
@[simp] theorem drawByte_tx : s.drawByte.2.tx = s.tx := rfl
@[simp] theorem drawByte_inputs : s.drawByte.2.inputs = s.inputs := rfl
@[simp] theorem drawByte_draws : s.drawByte.2.draws = s.draws + 1 := rfl

/-! ### setPe -/

@[simp] theorem setPe_cfg (p : PeState) : (s.setPe p).cfg = s.cfg := rfl
@[simp] theorem setPe_reg (p : PeState) : (s.setPe p).reg = s.reg := rfl
@[simp] theorem setPe_db (p : PeState) : (s.setPe p).db = s.db := rfl
@[simp] theorem setPe_cur (p : PeState) : (s.setPe p).cur = s.cur := rfl
@[simp] theorem setPe_led (p : PeState) : (s.setPe p).led = s.led := rfl
@[simp] theorem setPe_oe (p : PeState) : (s.setPe p).oe = s.oe := rfl
@[simp] theorem setPe_ledTrace (p : PeState) : (s.setPe p).ledTrace = s.ledTrace := rfl
@[simp] theorem setPe_st (p : PeState) : (s.setPe p).st = s.st := rfl
@[simp] theorem setPe_au (p : PeState) : (s.setPe p).au = s.au := rfl
@[simp] theorem setPe_idleCnt (p : PeState) : (s.setPe p).idleCnt = s.idleCnt := rfl
@[simp] theorem setPe_pe (p : PeState) : (s.setPe p).pe = { s.pe with state := p } := rfl
@[simp] theorem setPe_rx (p : PeState) : (s.setPe p).rx = s.rx := rfl
@[simp] theorem setPe_tx (p : PeState) : (s.setPe p).tx = s.tx := rfl
@[simp] theorem setPe_inputs (p : PeState) : (s.setPe p).inputs = s.inputs := rfl
@[simp] theorem setPe_draws (p : PeState) : (s.setPe p).draws = s.draws := rfl

/-! ### awaitPayload -/

@[simp] theorem awaitPayload_cfg (n : Nat) : (s.awaitPayload n).cfg = s.cfg := rfl
@[simp] theorem awaitPayload_reg (n : Nat) : (s.awaitPayload n).reg = s.reg := rfl
@[simp] theorem awaitPayload_db (n : Nat) : (s.awaitPayload n).db = s.db := rfl
@[simp] theorem awaitPayload_cur (n : Nat) : (s.awaitPayload n).cur = s.cur := rfl
@[simp] theorem awaitPayload_led (n : Nat) : (s.awaitPayload n).led = s.led := rfl
@[simp] theorem awaitPayload_oe (n : Nat) : (s.awaitPayload n).oe = s.oe := rfl
@[simp] theorem awaitPayload_ledTrace (n : Nat) : (s.awaitPayload n).ledTrace = s.ledTrace := rfl
@[simp] theorem awaitPayload_st (n : Nat) : (s.awaitPayload n).st = s.st := rfl
@[simp] theorem awaitPayload_au (n : Nat) : (s.awaitPayload n).au = s.au := rfl
@[simp] theorem awaitPayload_idleCnt (n : Nat) : (s.awaitPayload n).idleCnt = s.idleCnt := rfl
@[simp] theorem awaitPayload_pe (n : Nat) : (s.awaitPayload n).pe = { s.pe with need := n, state := .payload } := rfl
@[simp] theorem awaitPayload_rx (n : Nat) : (s.awaitPayload n).rx = s.rx := rfl
@[simp] theorem awaitPayload_tx (n : Nat) : (s.awaitPayload n).tx = s.tx := rfl
@[simp] theorem awaitPayload_inputs (n : Nat) : (s.awaitPayload n).inputs = s.inputs := rfl
@[simp] theorem awaitPayload_draws (n : Nat) : (s.awaitPayload n).draws = s.draws := rfl

/-! ### takePayload -/

@[simp] theorem takePayload_cfg (p : Byte) (rest : List Byte) : (s.takePayload p rest).cfg = s.cfg := rfl
@[simp] theorem takePayload_reg (p : Byte) (rest : List Byte) : (s.takePayload p rest).reg = s.reg := rfl
@[simp] theorem takePayload_db (p : Byte) (rest : List Byte) : (s.takePayload p rest).db = s.db := rfl
@[simp] theorem takePayload_cur (p : Byte) (rest : List Byte) : (s.takePayload p rest).cur = s.cur := rfl
@[simp] theorem takePayload_led (p : Byte) (rest : List Byte) : (s.takePayload p rest).led = s.led := rfl
@[simp] theorem takePayload_oe (p : Byte) (rest : List Byte) : (s.takePayload p rest).oe = s.oe := rfl
@[simp] theorem takePayload_ledTrace (p : Byte) (rest : List Byte) : (s.takePayload p rest).ledTrace = s.ledTrace := rfl
@[simp] theorem takePayload_st (p : Byte) (rest : List Byte) : (s.takePayload p rest).st = s.st := rfl
@[simp] theorem takePayload_au (p : Byte) (rest : List Byte) : (s.takePayload p rest).au = s.au := rfl
@[simp] theorem takePayload_idleCnt (p : Byte) (rest : List Byte) : (s.takePayload p rest).idleCnt = s.idleCnt := rfl
@[simp] theorem takePayload_pe (p : Byte) (rest : List Byte) :
    (s.takePayload p rest).pe = { s.pe with buf := s.pe.buf ++ [p], need := s.pe.need - 1 } := rfl
@[simp] theorem takePayload_rx (p : Byte) (rest : List Byte) : (s.takePayload p rest).rx = rest := rfl
@[simp] theorem takePayload_tx (p : Byte) (rest : List Byte) : (s.takePayload p rest).tx = s.tx := rfl
@[simp] theorem takePayload_inputs (p : Byte) (rest : List Byte) : (s.takePayload p rest).inputs = s.inputs := rfl
@[simp] theorem takePayload_draws (p : Byte) (rest : List Byte) : (s.takePayload p rest).draws = s.draws := rfl

/-! ### takeCommandByte -/

@[simp] theorem takeCommandByte_cfg (b : Byte) (rest : List Byte) : (takeCommandByte s b rest).cfg = s.cfg := rfl
@[simp] theorem takeCommandByte_reg (b : Byte) (rest : List Byte) : (takeCommandByte s b rest).reg = s.reg := rfl
@[simp] theorem takeCommandByte_db (b : Byte) (rest : List Byte) : (takeCommandByte s b rest).db = s.db := rfl
@[simp] theorem takeCommandByte_cur (b : Byte) (rest : List Byte) : (takeCommandByte s b rest).cur = s.cur := rfl
@[simp] theorem takeCommandByte_led (b : Byte) (rest : List Byte) : (takeCommandByte s b rest).led = s.led := rfl
@[simp] theorem takeCommandByte_oe (b : Byte) (rest : List Byte) : (takeCommandByte s b rest).oe = s.oe := rfl
@[simp] theorem takeCommandByte_ledTrace (b : Byte) (rest : List Byte) :
    (takeCommandByte s b rest).ledTrace = s.ledTrace := rfl
@[simp] theorem takeCommandByte_st (b : Byte) (rest : List Byte) : (takeCommandByte s b rest).st = s.st := rfl
@[simp] theorem takeCommandByte_au (b : Byte) (rest : List Byte) : (takeCommandByte s b rest).au = s.au := rfl
@[simp] theorem takeCommandByte_idleCnt (b : Byte) (rest : List Byte) :
    (takeCommandByte s b rest).idleCnt = s.idleCnt := rfl
@[simp] theorem takeCommandByte_pe (b : Byte) (rest : List Byte) :
    (takeCommandByte s b rest).pe = { s.pe with op := opcodeField b, imm := immediateField b, buf := [] } := rfl
@[simp] theorem takeCommandByte_rx (b : Byte) (rest : List Byte) : (takeCommandByte s b rest).rx = rest := rfl
@[simp] theorem takeCommandByte_tx (b : Byte) (rest : List Byte) : (takeCommandByte s b rest).tx = s.tx := rfl
@[simp] theorem takeCommandByte_inputs (b : Byte) (rest : List Byte) :
    (takeCommandByte s b rest).inputs = s.inputs := rfl
@[simp] theorem takeCommandByte_draws (b : Byte) (rest : List Byte) : (takeCommandByte s b rest).draws = s.draws := rfl

/-! ### dbPush -/

@[simp] theorem dbPush_cfg (c : Col) : (s.dbPush c).2.cfg = s.cfg := rfl
@[simp] theorem dbPush_reg (c : Col) : (s.dbPush c).2.reg = s.reg := rfl
@[simp] theorem dbPush_db (c : Col) : (s.dbPush c).2.db = (s.db.push s.cfg.vp s.cfg.cap c).2 := rfl
@[simp] theorem dbPush_cur (c : Col) : (s.dbPush c).2.cur = s.cur := rfl
@[simp] theorem dbPush_led (c : Col) : (s.dbPush c).2.led = s.led := rfl
@[simp] theorem dbPush_oe (c : Col) : (s.dbPush c).2.oe = s.oe := rfl
@[simp] theorem dbPush_ledTrace (c : Col) : (s.dbPush c).2.ledTrace = s.ledTrace := rfl
@[simp] theorem dbPush_st (c : Col) : (s.dbPush c).2.st = s.st := rfl
@[simp] theorem dbPush_au (c : Col) : (s.dbPush c).2.au = s.au := rfl
@[simp] theorem dbPush_idleCnt (c : Col) : (s.dbPush c).2.idleCnt = s.idleCnt := rfl
@[simp] theorem dbPush_pe (c : Col) : (s.dbPush c).2.pe = s.pe := rfl
@[simp] theorem dbPush_rx (c : Col) : (s.dbPush c).2.rx = s.rx := rfl
@[simp] theorem dbPush_tx (c : Col) : (s.dbPush c).2.tx = s.tx := rfl
@[simp] theorem dbPush_inputs (c : Col) : (s.dbPush c).2.inputs = s.inputs := rfl
@[simp] theorem dbPush_draws (c : Col) : (s.dbPush c).2.draws = s.draws := rfl

/-! ### dbClear -/

@[simp] theorem dbClear_cfg : s.dbClear.cfg = s.cfg := rfl
@[simp] theorem dbClear_reg : s.dbClear.reg = s.reg := rfl
@[simp] theorem dbClear_db : s.dbClear.db = s.db.clear s.cfg.cap := rfl
@[simp] theorem dbClear_cur : s.dbClear.cur = s.cur := rfl
@[simp] theorem dbClear_led : s.dbClear.led = s.led := rfl
@[simp] theorem dbClear_oe : s.dbClear.oe = s.oe := rfl
@[simp] theorem dbClear_ledTrace : s.dbClear.ledTrace = s.ledTrace := rfl
@[simp] theorem dbClear_st : s.dbClear.st = s.st := rfl
@[simp] theorem dbClear_au : s.dbClear.au = s.au := rfl
@[simp] theorem dbClear_idleCnt : s.dbClear.idleCnt = s.idleCnt := rfl
@[simp] theorem dbClear_pe : s.dbClear.pe = s.pe := rfl
@[simp] theorem dbClear_rx : s.dbClear.rx = s.rx := rfl
@[simp] theorem dbClear_tx : s.dbClear.tx = s.tx := rfl
@[simp] theorem dbClear_inputs : s.dbClear.inputs = s.inputs := rfl
@[simp] theorem dbClear_draws : s.dbClear.draws = s.draws := rfl

/-! ### suspend -/

@[simp] theorem suspend_cfg : (suspend s).cfg = s.cfg := rfl
@[simp] theorem suspend_reg : (suspend s).reg = s.reg := rfl
@[simp] theorem suspend_db : (suspend s).db = s.db := rfl
@[simp] theorem suspend_cur : (suspend s).cur = s.cur := rfl
@[simp] theorem suspend_led : (suspend s).led = s.led := rfl
@[simp] theorem suspend_oe : (suspend s).oe = s.oe := rfl
@[simp] theorem suspend_ledTrace : (suspend s).ledTrace = s.ledTrace := rfl
@[simp] theorem suspend_st : (suspend s).st = s.st := rfl
@[simp] theorem suspend_au : (suspend s).au = { s.au with active := false } := rfl
@[simp] theorem suspend_idleCnt : (suspend s).idleCnt = 0 := rfl
@[simp] theorem suspend_pe : (suspend s).pe = s.pe := rfl
@[simp] theorem suspend_rx : (suspend s).rx = s.rx := rfl
@[simp] theorem suspend_tx : (suspend s).tx = s.tx := rfl
@[simp] theorem suspend_inputs : (suspend s).inputs = s.inputs := rfl
@[simp] theorem suspend_draws : (suspend s).draws = s.draws := rfl

/-! ### stepMotor -/

@[simp] theorem stepMotor_cfg : (stepMotor s).cfg = s.cfg := rfl
@[simp] theorem stepMotor_reg : (stepMotor s).reg = s.reg := rfl
@[simp] theorem stepMotor_db : (stepMotor s).db = s.db := rfl
@[simp] theorem stepMotor_cur : (stepMotor s).cur = s.cur := rfl
@[simp] theorem stepMotor_led : (stepMotor s).led = s.led := rfl
@[simp] theorem stepMotor_oe : (stepMotor s).oe = s.oe := rfl
@[simp] theorem stepMotor_ledTrace : (stepMotor s).ledTrace = s.ledTrace := rfl
@[simp] theorem stepMotor_au : (stepMotor s).au = s.au := rfl
@[simp] theorem stepMotor_idleCnt : (stepMotor s).idleCnt = s.idleCnt := rfl
@[simp] theorem stepMotor_pe : (stepMotor s).pe = s.pe := rfl
@[simp] theorem stepMotor_rx : (stepMotor s).rx = s.rx := rfl
@[simp] theorem stepMotor_tx : (stepMotor s).tx = s.tx := rfl
@[simp] theorem stepMotor_inputs : (stepMotor s).inputs = s.inputs := rfl
@[simp] theorem stepMotor_draws : (stepMotor s).draws = s.draws := rfl

/-! ### shiftOut -/

@[simp] theorem shiftOut_cfg (c : Col) : (shiftOut c s).cfg = s.cfg := rfl
@[simp] theorem shiftOut_reg (c : Col) : (shiftOut c s).reg = s.reg := rfl
@[simp] theorem shiftOut_db (c : Col) : (shiftOut c s).db = s.db := rfl
@[simp] theorem shiftOut_cur (c : Col) : (shiftOut c s).cur = s.cur := rfl
@[simp] theorem shiftOut_led (c : Col) : (shiftOut c s).led = c := rfl
@[simp] theorem shiftOut_oe (c : Col) : (shiftOut c s).oe = s.oe := rfl
@[simp] theorem shiftOut_ledTrace (c : Col) : (shiftOut c s).ledTrace = s.ledTrace ++ shiftEvents c := rfl
@[simp] theorem shiftOut_st (c : Col) : (shiftOut c s).st = s.st := rfl
@[simp] theorem shiftOut_au (c : Col) : (shiftOut c s).au = s.au := rfl
@[simp] theorem shiftOut_idleCnt (c : Col) : (shiftOut c s).idleCnt = s.idleCnt := rfl
@[simp] theorem shiftOut_pe (c : Col) : (shiftOut c s).pe = s.pe := rfl
@[simp] theorem shiftOut_rx (c : Col) : (shiftOut c s).rx = s.rx := rfl
@[simp] theorem shiftOut_tx (c : Col) : (shiftOut c s).tx = s.tx := rfl
@[simp] theorem shiftOut_inputs (c : Col) : (shiftOut c s).inputs = s.inputs := rfl
@[simp] theorem shiftOut_draws (c : Col) : (shiftOut c s).draws = s.draws := rfl

/-! ### gate -/

@[simp] theorem gate_cfg : (gate s).cfg = s.cfg := rfl
@[simp] theorem gate_reg : (gate s).reg = s.reg := rfl
@[simp] theorem gate_db : (gate s).db = s.db := rfl
@[simp] theorem gate_cur : (gate s).cur = s.cur := rfl
@[simp] theorem gate_led : (gate s).led = s.led := rfl
@[simp] theorem gate_oe : (gate s).oe = decide (subTick s < onSubticks s.cfg s.reg.duty) := rfl
@[simp] theorem gate_ledTrace : (gate s).ledTrace = s.ledTrace := rfl
@[simp] theorem gate_st : (gate s).st = s.st := rfl
@[simp] theorem gate_au : (gate s).au = s.au := rfl
@[simp] theorem gate_idleCnt : (gate s).idleCnt = s.idleCnt := rfl
@[simp] theorem gate_pe : (gate s).pe = s.pe := rfl
@[simp] theorem gate_rx : (gate s).rx = s.rx := rfl
@[simp] theorem gate_tx : (gate s).tx = s.tx := rfl
@[simp] theorem gate_inputs : (gate s).inputs = s.inputs := rfl
@[simp] theorem gate_draws : (gate s).draws = s.draws := rfl

/-! ### dropInput -/

@[simp] theorem dropInput_cfg : (dropInput s).cfg = s.cfg := rfl
@[simp] theorem dropInput_reg : (dropInput s).reg = s.reg := rfl
@[simp] theorem dropInput_db : (dropInput s).db = s.db := rfl
@[simp] theorem dropInput_cur : (dropInput s).cur = s.cur := rfl
@[simp] theorem dropInput_led : (dropInput s).led = s.led := rfl
@[simp] theorem dropInput_oe : (dropInput s).oe = s.oe := rfl
@[simp] theorem dropInput_ledTrace : (dropInput s).ledTrace = s.ledTrace := rfl
@[simp] theorem dropInput_st : (dropInput s).st = s.st := rfl
@[simp] theorem dropInput_au : (dropInput s).au = s.au := rfl
@[simp] theorem dropInput_idleCnt : (dropInput s).idleCnt = s.idleCnt := rfl
@[simp] theorem dropInput_pe : (dropInput s).pe = s.pe := rfl
@[simp] theorem dropInput_rx : (dropInput s).rx = s.rx := rfl
@[simp] theorem dropInput_tx : (dropInput s).tx = s.tx := rfl
@[simp] theorem dropInput_inputs : (dropInput s).inputs = s.inputs.tail := rfl
@[simp] theorem dropInput_draws : (dropInput s).draws = s.draws := rfl

/-! ### hostSend -/

@[simp] theorem hostSend_cfg (b : Byte) : (hostSend b s).cfg = s.cfg := rfl
@[simp] theorem hostSend_reg (b : Byte) : (hostSend b s).reg = s.reg := rfl
@[simp] theorem hostSend_db (b : Byte) : (hostSend b s).db = s.db := rfl
@[simp] theorem hostSend_cur (b : Byte) : (hostSend b s).cur = s.cur := rfl
@[simp] theorem hostSend_led (b : Byte) : (hostSend b s).led = s.led := rfl
@[simp] theorem hostSend_oe (b : Byte) : (hostSend b s).oe = s.oe := rfl
@[simp] theorem hostSend_ledTrace (b : Byte) : (hostSend b s).ledTrace = s.ledTrace := rfl
@[simp] theorem hostSend_st (b : Byte) : (hostSend b s).st = s.st := rfl
@[simp] theorem hostSend_au (b : Byte) : (hostSend b s).au = s.au := rfl
@[simp] theorem hostSend_idleCnt (b : Byte) : (hostSend b s).idleCnt = s.idleCnt := rfl
@[simp] theorem hostSend_pe (b : Byte) : (hostSend b s).pe = s.pe := rfl
@[simp] theorem hostSend_rx (b : Byte) : (hostSend b s).rx = s.rx ++ [b] := rfl
@[simp] theorem hostSend_tx (b : Byte) : (hostSend b s).tx = s.tx := rfl
@[simp] theorem hostSend_inputs (b : Byte) : (hostSend b s).inputs = s.inputs := rfl
@[simp] theorem hostSend_draws (b : Byte) : (hostSend b s).draws = s.draws := rfl

/-! ### hostRead -/

@[simp] theorem hostRead_cfg (n : Nat) : (hostRead n s).cfg = s.cfg := rfl
@[simp] theorem hostRead_reg (n : Nat) : (hostRead n s).reg = s.reg := rfl
@[simp] theorem hostRead_db (n : Nat) : (hostRead n s).db = s.db := rfl
@[simp] theorem hostRead_cur (n : Nat) : (hostRead n s).cur = s.cur := rfl
@[simp] theorem hostRead_led (n : Nat) : (hostRead n s).led = s.led := rfl
@[simp] theorem hostRead_oe (n : Nat) : (hostRead n s).oe = s.oe := rfl
@[simp] theorem hostRead_ledTrace (n : Nat) : (hostRead n s).ledTrace = s.ledTrace := rfl
@[simp] theorem hostRead_st (n : Nat) : (hostRead n s).st = s.st := rfl
@[simp] theorem hostRead_au (n : Nat) : (hostRead n s).au = s.au := rfl
@[simp] theorem hostRead_idleCnt (n : Nat) : (hostRead n s).idleCnt = s.idleCnt := rfl
@[simp] theorem hostRead_pe (n : Nat) : (hostRead n s).pe = s.pe := rfl
@[simp] theorem hostRead_rx (n : Nat) : (hostRead n s).rx = s.rx := rfl
@[simp] theorem hostRead_tx (n : Nat) : (hostRead n s).tx = s.tx.drop n := rfl
@[simp] theorem hostRead_inputs (n : Nat) : (hostRead n s).inputs = s.inputs := rfl
@[simp] theorem hostRead_draws (n : Nat) : (hostRead n s).draws = s.draws := rfl

end

end Sys2Proof.Machine
end

