-- ==== Sys2Proof/Laws/Operands.lean ====
section
/-! SUPPORT. Operand assembly and disassembly (`30_encoding.md` R96), the clamps and the Register Bank's read and write
(`44_register_bank.md` R211, R212), case by case. -/

namespace Sys2Proof.Machine

/-- A value assembled from two bytes, the first the more significant. -/
theorem toNat_append (a b : Byte) : (a ++ b : Half).toNat = 256 * a.toNat + b.toNat := by
  refine (BitVec.toNat_append a b).trans ?_
  rw [← Nat.shiftLeft_add_eq_or_of_lt b.isLt, Nat.shiftLeft_eq]
  omega

theorem highByte_append (a b : Byte) : (a ++ b : Half).extractLsb' 8 8 = a := by
  have ha := a.isLt
  have hb := b.isLt
  refine BitVec.eq_of_toNat_eq ?_
  rw [BitVec.extractLsb'_toNat, toNat_append, Nat.shiftRight_eq_div_pow]
  omega

theorem lowByte_append (a b : Byte) : (a ++ b : Half).extractLsb' 0 8 = b := by
  have hb := b.isLt
  refine BitVec.eq_of_toNat_eq ?_
  rw [BitVec.extractLsb'_toNat, toNat_append, Nat.shiftRight_eq_div_pow]
  omega

theorem valueOperand_pair (a b : Byte) : (valueOperand [a, b]).toNat = 256 * a.toNat + b.toNat :=
  toNat_append a b

theorem clampHalf_toNat {v lo hi : Half} (h : lo.toNat ≤ hi.toNat) :
    (clampHalf v lo hi).toNat = max lo.toNat (min v.toNat hi.toNat) := by
  unfold clampHalf
  split_ifs <;> omega

theorem minHalf_toNat (v hi : Half) : (minHalf v hi).toNat = min v.toNat hi.toNat := by
  unfold minHalf
  split_ifs <;> omega

/-- A read of a defined register changes nothing. -/
theorem readReg_defined {i : Nibble} (s : State) (h : i.toNat ≤ 5) : (readReg i s).2 = s := by
  unfold readReg
  split <;> first | rfl | (exfalso; simp only [imp_false] at *; omega)

/-- A read of a reserved index draws a free value. -/
theorem readReg_reserved {i : Nibble} (s : State) (h : 5 < i.toNat) : readReg i s = s.drawHalf i := by
  unfold readReg
  split <;> first | rfl | (exfalso; omega)

theorem writeReg_aspect (v : Half) (s : State) :
    writeReg 3 v s =
      { s with reg := { s.reg with aspect := clampHalf v s.cfg.aspectMin s.cfg.aspectMax } } := rfl

theorem writeReg_duty (v : Half) (s : State) :
    writeReg 4 v s = { s with reg := { s.reg with duty := minHalf v s.cfg.dutyMax } } := rfl

/-- Writing any index but 3 and 4 changes nothing. -/
theorem writeReg_other {i : Nibble} (v : Half) (s : State) (h3 : i ≠ 3) (h4 : i ≠ 4) : writeReg i v s = s := by
  unfold writeReg
  split
  · next h => exact absurd (BitVec.eq_of_toNat_eq h) h3
  · next h => exact absurd (BitVec.eq_of_toNat_eq h) h4
  · rfl

/-- What a register write can change. -/
theorem writeReg_frame (i : Nibble) (v : Half) (s : State) : ∃ r, writeReg i v s = { s with reg := r } := by
  unfold writeReg
  split <;> exact ⟨_, rfl⟩

end Sys2Proof.Machine
end

