-- ==== Sys2Proof/Laws/PerInstr.lean ====
section
/-! SUPPORT. What is said of every instruction as syntax, one lemma for each constructor. -/

namespace Sys2Proof.Laws.WireFormat

/-- The command byte of an instruction (`30_encoding.md` R90, R93): the opcode field is the nibble of its row, the
immediate field its operand, and the payload length is told by the row alone. -/
def Statement (i : Instr) : Prop :=
  ∀ (o : Opc) (vp : Nat),
    opcodeField (encodeByte o i) = o.rows.getD i.row 0x0#4 ∧ immediateField (encodeByte o i) = i.imm ∧
    (encode o i).length = 1 ∧ i.payloadLen vp = (if i.row = 1 then vp / 8 else if i.row = 5 then 2 else 0)

/-- The fields are the same for all; the length is told row by row. -/
theorem of_length {i : Instr} (h : ∀ vp, i.payloadLen vp = (if i.row = 1 then vp / 8 else if i.row = 5 then 2 else 0)) :
    Statement i :=
  fun _ vp => ⟨(fields_append _ _).1, (fields_append _ _).2, rfl, h vp⟩

theorem noOp (e : Nibble) : Statement (.noOp e) := of_length fun _ => rfl

theorem pushLine (e : Nibble) : Statement (.pushLine e) := of_length fun _ => rfl

theorem flushBuffer (e : Nibble) : Statement (.flushBuffer e) := of_length fun _ => rfl

theorem clearBuffer (e : Nibble) : Statement (.clearBuffer e) := of_length fun _ => rfl

theorem regRead (e : Nibble) : Statement (.regRead e) := of_length fun _ => rfl

theorem regWrite (e : Nibble) : Statement (.regWrite e) := of_length fun _ => rfl

theorem ping (e : Nibble) : Statement (.ping e) := of_length fun _ => rfl

theorem reserved7 (e : Nibble) : Statement (.reserved7 e) := of_length fun _ => rfl

theorem reserved8 (e : Nibble) : Statement (.reserved8 e) := of_length fun _ => rfl

theorem reserved9 (e : Nibble) : Statement (.reserved9 e) := of_length fun _ => rfl

theorem reservedA (e : Nibble) : Statement (.reservedA e) := of_length fun _ => rfl

theorem reservedB (e : Nibble) : Statement (.reservedB e) := of_length fun _ => rfl

theorem reservedC (e : Nibble) : Statement (.reservedC e) := of_length fun _ => rfl

theorem reservedD (e : Nibble) : Statement (.reservedD e) := of_length fun _ => rfl

theorem reservedE (e : Nibble) : Statement (.reservedE e) := of_length fun _ => rfl

theorem reservedF (e : Nibble) : Statement (.reservedF e) := of_length fun _ => rfl

end Sys2Proof.Laws.WireFormat
end

