-- ==== Sys2Proof/Laws/Tick.lean ====
section
/-! SUPPORT. What the parts of a TICK step do, case by case (`43_scanout_renderer.md` R186, `45_automaton_generator.md`
R234, R235), so that no later proof unfolds them. -/

namespace Sys2Proof.Machine

/-! ### Positions -/

theorem csteps_pos (s : State) : 0 < csteps s :=
  Nat.mul_pos (Nat.lt_of_lt_of_le Nat.one_pos (Nat.le_max_left _ _)) s.cfg.spf_pos

@[simp] theorem csteps_stepMotor (s : State) : csteps (stepMotor s) = csteps s := rfl

@[simp] theorem stepMotor_st_step (s : State) : (stepMotor s).st.step = (s.st.step + 1) % s.cfg.rs := rfl

theorem pos_stepMotor (s : State) : pos (stepMotor s) = (s.st.step + 1) % s.cfg.rs % csteps s := rfl

/-! ### FRAME -/

theorem dbFull_iff (s : State) : dbFull s = true ↔ s.db.count = s.cfg.cap := by simp [dbFull]

theorem frame_full {s : State} (h : s.db.count = s.cfg.cap) : frame s = s := by
  simp [frame, (dbFull_iff s).mpr h]

theorem frame_room {s : State} (h : s.db.count < s.cfg.cap) :
    frame s = { s with
      db := { mem := Memory.write s.cfg.vp s.db.mem (s.db.tail s.cfg.cap) (advance (rotate s.cfg s.au)).row
              head := s.db.head
              count := s.db.count + 1 }
      au := { advance (rotate s.cfg s.au) with frames := (advance (rotate s.cfg s.au)).frames + 1 } } := by
  have hf : ¬ dbFull s = true := fun e => Nat.ne_of_lt h ((dbFull_iff s).mp e)
  simp only [frame, hf, Bool.false_eq_true, if_false, State.dbPush, DisplayBuffer.push_room _ h]

/-- What FRAME can change. -/
theorem frame_frame (s : State) : ∃ db au, frame s = { s with db := db, au := au } := by
  unfold frame
  split
  · exact ⟨s.db, s.au, rfl⟩
  · exact ⟨_, _, rfl⟩

theorem budgetSpent_iff (c : Config) (a : Automaton) :
    budgetSpent c a = true ↔ c.af ≤ a.frames ∨ (a.stuck = true ∧ c.amf ≤ a.frames) := by
  simp [budgetSpent]

/-- A rule that has just been reseeded has its whole budget. -/
theorem rotate_reseed (c : Config) (a : Automaton) : rotate c (reseed c.vp a) = reseed c.vp a := by
  have h : ¬ budgetSpent c (reseed c.vp a) = true := by
    have := c.af_pos
    simp only [budgetSpent_iff, reseed, Bool.false_eq_true, false_and, or_false]
    omega
  simp [rotate, h]

theorem advance_reseed (vp : Nat) (a : Automaton) : advance (reseed vp a) = reseed vp a := by
  simp [advance, reseed]

theorem rotate_spent {c : Config} {a : Automaton} (h : budgetSpent c a = true) :
    rotate c a = reseed c.vp { a with ridx := a.ridx + 1 } := by simp [rotate, h]

theorem rotate_unspent {c : Config} {a : Automaton} (h : ¬ budgetSpent c a = true) : rotate c a = a := by
  simp [rotate, h]

theorem rotate_active (c : Config) (a : Automaton) : (rotate c a).active = a.active := by
  unfold rotate reseed
  split <;> rfl

theorem advance_active (a : Automaton) : (advance a).active = a.active := by
  unfold advance
  split <;> rfl

theorem advance_frames (a : Automaton) : (advance a).frames = a.frames := by
  unfold advance
  split <;> rfl

theorem rotate_frames_lt (c : Config) (a : Automaton) : (rotate c a).frames < c.af := by
  have := c.af_pos
  unfold rotate
  split
  · exact this
  · next h =>
    rw [budgetSpent_iff] at h
    omega

/-! ### FALLBACK -/

theorem fallback_busy {s : State} (popped : Bool) (h : s.pe.state ≠ .idle) : fallback popped s = s := by
  simp [fallback, h]

theorem fallback_active {s : State} (popped : Bool) (h : s.pe.state = .idle) (ha : s.au.active = true) :
    fallback popped s = frame s := by
  simp [fallback, h, ha]

theorem fallback_popped {s : State} (h : s.pe.state = .idle) (ha : s.au.active = false) :
    fallback true s = { s with idleCnt := 0 } := by
  simp [fallback, h, ha]

theorem fallback_counts {s : State} (h : s.pe.state = .idle) (ha : s.au.active = false)
    (hi : s.idleCnt + 1 < s.cfg.idleColumns) : fallback false s = { s with idleCnt := s.idleCnt + 1 } := by
  have hm : min (s.idleCnt + 1) s.cfg.idleColumns = s.idleCnt + 1 := by omega
  have hne : s.idleCnt + 1 ≠ s.cfg.idleColumns := by omega
  simp [fallback, h, ha, hm, hne]

theorem fallback_activates {s : State} (h : s.pe.state = .idle) (ha : s.au.active = false)
    (hi : s.cfg.idleColumns ≤ s.idleCnt + 1) :
    fallback false s =
      frame { s with idleCnt := 0, au := reseed s.cfg.vp { s.au with active := true } } := by
  have hm : min (s.idleCnt + 1) s.cfg.idleColumns = s.cfg.idleColumns := by omega
  simp [fallback, h, ha, hm]

/-- FALLBACK does one of five things. -/
theorem fallback_cases (popped : Bool) (s : State) :
    (s.pe.state ≠ .idle ∧ fallback popped s = s) ∨
    (s.pe.state = .idle ∧ s.au.active = true ∧ fallback popped s = frame s) ∨
    (s.pe.state = .idle ∧ s.au.active = false ∧ popped = true ∧ fallback popped s = { s with idleCnt := 0 }) ∨
    (s.pe.state = .idle ∧ s.au.active = false ∧ popped = false ∧ s.idleCnt + 1 < s.cfg.idleColumns ∧
      fallback popped s = { s with idleCnt := s.idleCnt + 1 }) ∨
    (s.pe.state = .idle ∧ s.au.active = false ∧ popped = false ∧ s.cfg.idleColumns ≤ s.idleCnt + 1 ∧
      fallback popped s =
        frame { s with idleCnt := 0, au := reseed s.cfg.vp { s.au with active := true } }) := by
  by_cases h : s.pe.state = .idle
  · cases ha : s.au.active
    · cases popped
      · by_cases hi : s.idleCnt + 1 < s.cfg.idleColumns
        · exact .inr (.inr (.inr (.inl ⟨h, rfl, rfl, hi, fallback_counts h ha hi⟩)))
        · exact .inr (.inr (.inr (.inr ⟨h, rfl, rfl, by omega, fallback_activates h ha (by omega)⟩)))
      · exact .inr (.inr (.inl ⟨h, rfl, rfl, fallback_popped h ha⟩))
    · exact .inr (.inl ⟨h, rfl, fallback_active popped h ha⟩)
  · exact .inl ⟨h, fallback_busy popped h⟩

/-- What FALLBACK can change. -/
theorem fallback_frame (popped : Bool) (s : State) :
    ∃ db au i, fallback popped s = { s with db := db, au := au, idleCnt := i } := by
  rcases fallback_cases popped s with ⟨_, e⟩ | ⟨_, _, e⟩ | ⟨_, _, _, e⟩ | ⟨_, _, _, _, e⟩ | ⟨_, _, _, _, e⟩
  · exact ⟨_, _, _, e⟩
  · obtain ⟨db, au, hf⟩ := frame_frame s
    exact ⟨db, au, _, e.trans hf⟩
  · exact ⟨_, _, _, e⟩
  · exact ⟨_, _, _, e⟩
  · obtain ⟨db, au, hf⟩ :=
      frame_frame { s with idleCnt := 0, au := reseed s.cfg.vp { s.au with active := true } }
    exact ⟨db, au, _, e.trans hf⟩

/-! ### Column fetch and the whole tick -/

theorem fetchColumn_empty {s : State} (h : s.db.count = 0) : fetchColumn s = (false, s) := by
  simp [fetchColumn, DisplayBuffer.pop_empty h]

theorem fetchColumn_some {s : State} (h : s.db.count ≠ 0) :
    fetchColumn s = (true, { s with
      db := { mem := s.db.mem, head := (s.db.head + 1) % s.cfg.cap, count := s.db.count - 1 }
      cur := Memory.read s.cfg.vp s.db.mem s.db.head
      led := Memory.read s.cfg.vp s.db.mem s.db.head
      ledTrace := s.ledTrace ++ shiftEvents (Memory.read s.cfg.vp s.db.mem s.db.head) }) := by
  simp [fetchColumn, DisplayBuffer.pop_some h, shiftOut]

theorem tick_boundary {s : State} (h : (s.st.step + 1) % s.cfg.rs % csteps s = 0) :
    tick s = gate (boundary (stepMotor s)) := by
  simp only [tick, pos_stepMotor, h, if_true]

theorem tick_off {s : State} (h : (s.st.step + 1) % s.cfg.rs % csteps s ≠ 0) : tick s = gate (stepMotor s) := by
  simp only [tick, pos_stepMotor, h, if_false]

/-- What a column boundary can change. -/
theorem boundary_frame (s : State) : ∃ db cur led tr au i,
    boundary s = { s with db := db, cur := cur, led := led, ledTrace := tr, au := au, idleCnt := i } := by
  unfold boundary
  obtain ⟨db, au, i, e⟩ := fallback_frame (fetchColumn s).1 (fetchColumn s).2
  rw [e]
  by_cases h : s.db.count = 0
  · rw [fetchColumn_empty h]
    exact ⟨_, _, _, _, _, _, rfl⟩
  · rw [fetchColumn_some h]
    exact ⟨_, _, _, _, _, _, rfl⟩

/-- What a tick can change: the stepper as STEP says, and the display, the ring, the generator, the idle count. -/
theorem tick_frame (s : State) : ∃ db cur led oe tr au i,
    tick s = { stepMotor s with
      db := db, cur := cur, led := led, oe := oe, ledTrace := tr, au := au, idleCnt := i } := by
  by_cases h : (s.st.step + 1) % s.cfg.rs % csteps s = 0
  · obtain ⟨db, cur, led, tr, au, i, e⟩ := boundary_frame (stepMotor s)
    rw [tick_boundary h, e]
    exact ⟨_, _, _, _, _, _, _, rfl⟩
  · rw [tick_off h]
    exact ⟨_, _, _, _, _, _, _, rfl⟩

theorem tick_st (s : State) : (tick s).st = (stepMotor s).st := by
  obtain ⟨_, _, _, _, _, _, _, e⟩ := tick_frame s
  rw [e]

theorem tick_cfg (s : State) : (tick s).cfg = s.cfg := by
  obtain ⟨_, _, _, _, _, _, _, e⟩ := tick_frame s
  rw [e]; rfl

theorem tick_reg (s : State) : (tick s).reg = s.reg := by
  obtain ⟨_, _, _, _, _, _, _, e⟩ := tick_frame s
  rw [e]; rfl

theorem tick_pe (s : State) : (tick s).pe = s.pe := by
  obtain ⟨_, _, _, _, _, _, _, e⟩ := tick_frame s
  rw [e]; rfl

end Sys2Proof.Machine
end

