-- ==== Sys2Proof/Tests/Slice0.lean ====
section
/-! SUPPORT. The model's own tests, under `REF`. Expected values are those of `95_test_vectors.md` (vectors E1 to E33,
B1 to B13, sections 2.1 to 2.6, programs 1 to 5) and of the encoding table in `30_encoding.md` section 4; the vector
stands beside the test. The second half holds one witness for the hypotheses of each obligation. -/

namespace Sys2Proof.Tests

open Sys2Proof Sys2Proof.Machine

/-- The state after an outcome, `s` where it is none. -/
def stateOf (s : State) (o : Host.Outcome State Fault Refusal) : State :=
  match o with
  | .next t => t
  | .fault _ => s
  | .refused _ => s

/-- One step. -/
def after (s : State) : State := stateOf s (step s)

/-- Reset with bytes in `rx`. -/
def start (rx : List Byte) : State := { State.reset with rx := rx }

/-- Reset, the engine inside the command with opcode `op` and immediate `imm`. -/
def busy (p : PeState) (op imm : Nibble) (need : Nat) (buf rx : List Byte) : State :=
  { State.reset with rx := rx, pe := { state := p, op := op, imm := imm, need := need, buf := buf } }

/-- The same state with the columns of the given payloads in the buffer, from slot 0 on. -/
def holding (cols : List (List Byte)) (s : State) : State :=
  { s with db := cols.foldl (fun d bs => (d.push s.cfg.vp s.cfg.cap (unpack bs)).2) State.reset.db }

/-- The same state `n` steps into the rotation, with the phase and the pins that belong there. -/
def atStep (n : Nat) (s : State) : State :=
  { s with st := { phase := Fin.ofNat 8 n, step := n, motor := halfStepTable.getD (n % 8) 0 } }

/-- The same state with a next event. -/
def withEvent (e : Event) (s : State) : State := { s with inputs := [e] }

/-- Eight columns of two bytes: a full buffer under `REF`. -/
def eight : List (List Byte) := List.replicate 8 [0x80, 0x01]

/-! ### WellFormed smoke: ill-formed commands and configurations that the checks refuse -/

theorem test_wf_pushLine_short : Command.WellFormed 16 { instr := .pushLine 0, payload := [0x80] } = false := by decide

theorem test_wf_pushLine_long :
    Command.WellFormed 16 { instr := .pushLine 0, payload := [0x80, 0x01, 0x67] } = false := by decide

theorem test_wf_regWrite_short : Command.WellFormed 16 { instr := .regWrite 4, payload := [0x00] } = false := by decide

theorem test_wf_regWrite_long :
    Command.WellFormed 16 { instr := .regWrite 4, payload := [0x00, 0x80, 0x00] } = false := by decide

theorem test_wf_payload_after_one_byte_commands :
    Command.WellFormed 16 { instr := .noOp 0, payload := [0x00] } = false ∧
    Command.WellFormed 16 { instr := .ping 7, payload := [0x00] } = false ∧
    Command.WellFormed 16 { instr := .reservedA 5, payload := [0x12, 0x34] } = false := by decide

theorem test_wf_program :
    programWellFormed 16 [{ instr := .pushLine 0, payload := [0x80, 0x01] }, { instr := .ping 7, payload := [] }] = true ∧
    programWellFormed 16 [{ instr := .ping 7, payload := [] }, { instr := .pushLine 0, payload := [] }] = false := by
  decide

/-- One violated constraint of R6 each. -/
theorem test_config_refused :
    (RawConfig.ok { RawConfig.ref with vp := 12 } = false ∧ RawConfig.ok { RawConfig.ref with vp := 0 } = false ∧
    RawConfig.ok { RawConfig.ref with hp := 11 } = false ∧ RawConfig.ok { RawConfig.ref with rpm := 0 } = false ∧
    RawConfig.ok { RawConfig.ref with cap := 0 } = false ∧ RawConfig.ok { RawConfig.ref with cap := 256 } = false ∧
    RawConfig.ok { RawConfig.ref with motorStates := [] } = false) ∧
    (RawConfig.ok { RawConfig.ref with amf := 13 } = false ∧ RawConfig.ok { RawConfig.ref with idleColumns := 0 } = false ∧
    RawConfig.ok { RawConfig.ref with opc := { Opc.inListOrder with ping := 0x5 } } = false ∧
    RawConfig.ok { RawConfig.ref with aspectMin := 0x003F } = false ∧
    RawConfig.ok { RawConfig.ref with aspectReset := 0x0401 } = false ∧
    RawConfig.ok { RawConfig.ref with dutyReset := 0x0101 } = false) := by decide

/-! ### Decoding: each constructor's command byte, written out bit by bit (`30_encoding.md` R90, R94) -/

theorem test_decode_noOp : decodeByte Opc.inListOrder 0b0000_1111 = .noOp 0xF := by decide

theorem test_decode_pushLine : decodeByte Opc.inListOrder 0b0001_1100 = .pushLine 0xC := by decide

theorem test_decode_flushBuffer : decodeByte Opc.inListOrder 0b0010_1010 = .flushBuffer 0xA := by decide

theorem test_decode_clearBuffer : decodeByte Opc.inListOrder 0b0011_0000 = .clearBuffer 0x0 := by decide

theorem test_decode_regRead : decodeByte Opc.inListOrder 0b0100_0101 = .regRead 5 := by decide

theorem test_decode_regWrite : decodeByte Opc.inListOrder 0b0101_0011 = .regWrite 3 := by decide

theorem test_decode_ping : decodeByte Opc.inListOrder 0b0110_0111 = .ping 7 := by decide

theorem test_decode_reserved7 : decodeByte Opc.inListOrder 0b0111_0000 = .reserved7 0x0 := by decide

theorem test_decode_reserved8 : decodeByte Opc.inListOrder 0b1000_0001 = .reserved8 0x1 := by decide

theorem test_decode_reserved9 : decodeByte Opc.inListOrder 0b1001_0010 = .reserved9 0x2 := by decide

theorem test_decode_reservedA : decodeByte Opc.inListOrder 0b1010_0101 = .reservedA 0x5 := by decide

theorem test_decode_reservedB : decodeByte Opc.inListOrder 0b1011_1000 = .reservedB 0x8 := by decide

theorem test_decode_reservedC : decodeByte Opc.inListOrder 0b1100_0110 = .reservedC 0x6 := by decide

theorem test_decode_reservedD : decodeByte Opc.inListOrder 0b1101_1001 = .reservedD 0x9 := by decide

theorem test_decode_reservedE : decodeByte Opc.inListOrder 0b1110_0100 = .reservedE 0x4 := by decide

theorem test_decode_reservedF : decodeByte Opc.inListOrder 0b1111_0011 = .reservedF 0x3 := by decide

/-- The encoding table of `30_encoding.md` section 4, whole commands to bytes. -/
theorem test_encode_table :
    encodeProgram Opc.inListOrder
      [{ instr := .noOp 0, payload := [] }, { instr := .pushLine 0, payload := [0x80, 0x01] },
       { instr := .flushBuffer 0, payload := [] }, { instr := .clearBuffer 0, payload := [] },
       { instr := .regRead 5, payload := [] }, { instr := .regWrite 4, payload := [0x00, 0x80] },
       { instr := .ping 7, payload := [] }, { instr := .reservedF 3, payload := [] }] =
      [0x00, 0x10, 0x80, 0x01, 0x20, 0x30, 0x45, 0x54, 0x00, 0x80, 0x67, 0xF3] := by decide

/-- Another injective `OPC` (R94): PING on 0xF, NO_OP on 0x6; nibble 0x0 is then the first reserved one (log 2). -/
theorem test_decode_other_opc :
    decodeByte { Opc.inListOrder with noOp := 0x6, ping := 0xF } 0xF7 = .ping 7 ∧
    decodeByte { Opc.inListOrder with noOp := 0x6, ping := 0xF } 0x62 = .noOp 2 ∧
    decodeByte { Opc.inListOrder with noOp := 0x6, ping := 0xF } 0x05 = .reserved7 5 := by decide

/-- What decoding rejects, by name. -/
theorem test_decode_rejects :
    decode Opc.inListOrder [] = .error .noCommandByte ∧
    decodeCommand Opc.inListOrder 16 [0x10, 0x80] = .error (.shortPayload 2) ∧
    decodeCommand Opc.inListOrder 16 [0x54, 0x00] = .error (.shortPayload 2) := ⟨rfl, rfl, rfl⟩

/-- With another VP only the length of PUSH_LINE changes (section 2.1). -/
theorem test_decode_other_vp :
    decodeCommand Opc.inListOrder 8 [0x10, 0xA5] = .ok ({ instr := .pushLine 0, payload := [0xA5] }, []) ∧
    decodeCommand Opc.inListOrder 24 [0x10, 0xA5, 0x5A, 0xFF] =
      .ok ({ instr := .pushLine 0, payload := [0xA5, 0x5A, 0xFF] }, []) := ⟨rfl, rfl⟩

/-- Every row of spec/opcode_table.json, by its match value. -/
theorem test_table_words :
    (List.range 16).map (fun k => decodeTableWord 8 (16 * k)) =
      [some (.noOp 0), some (.pushLine 0), some (.flushBuffer 0), some (.clearBuffer 0), some (.regRead 0),
       some (.regWrite 0), some (.ping 0), some (.reserved7 0)] ++
      [some (.reserved8 0), some (.reserved9 0), some (.reservedA 0), some (.reservedB 0), some (.reservedC 0),
       some (.reservedD 0), some (.reservedE 0), some (.reservedF 0)] := by decide

/-- The table word of `PUSH_LINE` has one byte; its payload bytes are zeros. -/
theorem test_table_bytes :
    tableBytes Opc.inListOrder 16 8 0x10 = [0x10, 0x00, 0x00] ∧ tableBytes Opc.inListOrder 16 8 0x54 = [0x54, 0x00, 0x00] ∧
    tableBytes Opc.inListOrder 16 8 0x67 = [0x67] := by decide

/-- E28, placed where PE takes its next command byte from. -/
theorem test_withFetchWord_ping : (after (State.reset.withFetchWord 8 0x67)).tx = [0x17] := by decide

theorem test_withFetchWord_before_events :
    (after ((withEvent .tick State.reset).withFetchWord 8 0x67)).tx = [0x17] ∧
    (after ((withEvent .tick State.reset).withFetchWord 8 0x67)).inputs = [.tick] := by decide

/-! ### The commands, one step each -/

/-- E2: nothing happens but that the byte leaves `rx`. -/
theorem test_noOp : after (start [0x0F]) = busy .idle 0x0 0xF 0 [] [] := by decide

/-- E30, E31. -/
theorem test_reserved : after (start [0x70]) = busy .idle 0x7 0x0 0 [] [] ∧
    after (start [0xFF]) = busy .idle 0xF 0xF 0 [] [] := by decide

/-- E32, E33, first step: a reserved command byte has length 1, so the next byte is a command byte. -/
theorem test_reserved_length : (after (start [0xA5, 0x12, 0x34, 0x67])).rx = [0x12, 0x34, 0x67] ∧
    (after (start [0xA5, 0x12, 0x34, 0x67])).pe.state = .idle := by decide

/-- E27, E28, E29. -/
theorem test_ping : (after (start [0x60])).tx = [0x10] ∧ (after (start [0x67])).tx = [0x17] ∧
    (after (start [0x6F])).tx = [0x1F] := by decide

/-- E13 to E18. -/
theorem test_regRead_reset :
    (after (start [0x40])).tx = [0x00, 0x10] ∧ (after (start [0x41])).tx = [0x00, 0x0A] ∧
    (after (start [0x42])).tx = [0x02, 0x58] ∧ (after (start [0x43])).tx = [0x01, 0x00] ∧
    (after (start [0x44])).tx = [0x01, 0x00] ∧ (after (start [0x45])).tx = [0x08, 0x00] := by decide

/-- E19, and E20: a reserved index answers exactly two bytes and uses one free value. -/
theorem test_regRead_occupancy_reserved :
    (after (holding [[0, 1], [0, 2], [0, 3]] (start [0x45]))).tx = [0x08, 0x03] ∧
    (after (start [0x46])).tx.length = 2 ∧ (after (start [0x4F])).draws = 1 := by decide

/-- E26: one payload byte is still missing. -/
theorem test_regWrite_dispatch : after (start [0x54, 0x00]) = busy .payload 0x5 0x4 2 [] [0x00] := by decide

/-- E22, E23, E24, and the clamps of register 3 (section 2.5): the step that takes the second payload byte. -/
theorem test_regWrite_writes :
    (after (busy .payload 0x5 4 1 [0x00] [0x80])).reg.duty = 0x0080 ∧
    (after (busy .payload 0x5 4 1 [0x02] [0x00])).reg.duty = 0x0100 ∧
    (after (busy .payload 0x5 3 1 [0x00] [0x3F])).reg.aspect = 0x0040 ∧
    (after (busy .payload 0x5 3 1 [0x04] [0x01])).reg.aspect = 0x0400 ∧
    after (busy .payload 0x5 0 1 [0x12] [0x34, 0x40]) = busy .idle 0x5 0 0 [0x12, 0x34] [0x40] := by decide

/-- E7, first step; E8, last COLLECT: a payload byte that looks like a PING is data. -/
theorem test_pushLine_payload :
    after (start [0x10, 0x80]) = busy .payload 0x1 0x0 2 [] [0x80] ∧
    after (busy .payload 0x1 0x0 1 [0x67] [0x67]) = busy .waitSpace 0x1 0x0 0 [0x67, 0x67] [] := by decide

/-- E3, E5: PUSH-COMPLETE into an empty buffer, and into the last free slot. -/
theorem test_pushLine_completes :
    (after (busy .waitSpace 0x1 0xC 0 [0x80, 0x01] [])).tx = [0x07] ∧
    (after (busy .waitSpace 0x1 0xC 0 [0x80, 0x01] [])).queue.map pack = [[0x80, 0x01]] ∧
    (after (holding (eight.take 7) (busy .waitSpace 0x1 0 0 [0x12, 0x34] []))).tx = [0x00] := by decide

/-- E9: FLUSH-COMPLETE at once, one byte. -/
theorem test_flushBuffer_completes :
    (after (start [0x20])).pe.state = .waitEmpty ∧ (after (start [0x20])).tx = [] ∧
    (after (busy .waitEmpty 0x2 0 0 [] [])).tx.length = 1 ∧
    (after (busy .waitEmpty 0x2 0 0 [] [])).pe.state = .idle := by decide

/-- E10: with columns in the buffer PE's turn changes nothing and the next byte stays. -/
theorem test_flushBuffer_waits :
    after (withEvent .pe (holding (eight.take 3) (busy .waitEmpty 0x2 0 0 [] [0x67]))) =
      holding (eight.take 3) (busy .waitEmpty 0x2 0 0 [] [0x67]) := by decide

/-- E11: the column under scan-out stays. -/
theorem test_clearBuffer :
    (after (holding (eight.take 5) { start [0x30] with cur := unpack [0xC0, 0x00] })).db.count = 0 ∧
    (after (holding (eight.take 5) { start [0x30] with cur := unpack [0xC0, 0x00] })).cur = unpack [0xC0, 0x00] := by
  decide

/-! ### Display Buffer (section 2.2), with CAP = 3 and one-byte columns -/

/-- A ring of three slots after B5: A is popped, B and C are left. -/
def ringBC : DisplayBuffer := { mem := [(0, unpack [0x0A]), (1, unpack [0x0B]), (2, unpack [0x0C])], head := 1, count := 2 }

/-- B5: pop from A, B, C gives A. -/
theorem test_buffer_pop :
    DisplayBuffer.pop 8 3 { ringBC with head := 0, count := 3 } = (some (unpack [0x0A]), ringBC) := by decide

/-- B6: the slot of A is used again; B4: a full buffer refuses; B11: clear. -/
theorem test_buffer_wrap :
    (ringBC.push 8 3 (unpack [0x0D])).2.q 8 3 = [unpack [0x0B], unpack [0x0C], unpack [0x0D]] ∧
    (ringBC.push 8 3 (unpack [0x0D])).2.push 8 3 (unpack [0x0E]) = (false, (ringBC.push 8 3 (unpack [0x0D])).2) ∧
    (ringBC.clear 3).q 8 3 = [] ∧ DisplayBuffer.pop 8 3 (ringBC.clear 3) = (none, ringBC.clear 3) := by decide

/-- Writing what an unlisted slot reads as removes the entry, so that equal memories are equal data. -/
theorem test_memory_canonical :
    Memory.write 8 [(0, unpack [0x0A]), (1, unpack [0x0B])] 0 (unpack [0x00]) = [(1, unpack [0x0B])] ∧
    Memory.write 8 [(1, unpack [0x0B])] 0 (unpack [0x0A]) = [(0, unpack [0x0A]), (1, unpack [0x0B])] := by decide

/-! ### TICK (sections 2.3, 2.4, 2.6) -/

/-- Ticks 1, 8 and 80. -/
theorem test_tick_stepper :
    (tick State.reset).st = { phase := 1, step := 1, motor := 0x3 } ∧
    (tick (atStep 7 State.reset)).st = { phase := 0, step := 8, motor := 0x1 } ∧
    (tick (atStep 79 State.reset)).st = { phase := 0, step := 0, motor := 0x1 } := by decide

/-- A tick with DIR_DELTA = -1: phase 7, pins 0x9, step 1. -/
theorem test_tick_stepper_down : nextPhase .minusOne 0 = 7 ∧ halfStepTable.getD 7 0 = 0x9 ∧ nextPhase .minusOne 7 = 6 := by
  decide

theorem test_step_microseconds : stepMicroseconds Config.ref = 1250 := by decide

/-- `oe` with duty 0.5: lit at positions 0 to 3. -/
theorem test_tick_duty :
    (tick (atStep 2 { State.reset with reg := { aspect := 0x0100, duty := 0x0080 } })).oe = true ∧
    (tick (atStep 3 { State.reset with reg := { aspect := 0x0100, duty := 0x0080 } })).oe = false ∧
    (tick (atStep 7 { State.reset with reg := { aspect := 0x0100, duty := 0x0080 } })).oe = true := by decide

/-- `col_subticks` and `on_subticks`. -/
theorem test_renderer_arithmetic :
    [0x0040, 0x0080, 0x00FF, 0x0100, 0x0180, 0x01FF, 0x0400].map (colSubticks Config.ref) = [1, 2, 3, 4, 6, 7, 16] ∧
    [0x0000, 0x003F, 0x0040, 0x0080, 0x00C0, 0x00FF, 0x0100].map (onSubticks Config.ref) = [0, 0, 1, 2, 3, 3, 4] := by
  decide

/-- Position 5, column 1, sub-tick 2 at step 13. -/
theorem test_positions :
    pos (atStep 13 State.reset) = 5 ∧ columnIndex (atStep 13 State.reset) = 1 ∧ subTick (atStep 13 State.reset) = 2 := by
  decide

/-- Popping `A5 0F` at tick 8 shifts its bits out, LED 0 first, and latches once. -/
theorem test_tick_shiftOut :
    (tick (holding [[0xA5, 0x0F]] (atStep 7 State.reset))).led = unpack [0xA5, 0x0F] ∧
    (tick (holding [[0xA5, 0x0F]] (atStep 7 State.reset))).ledTrace =
      [true, false, true, false, false, true, false, true, false, false, false, false, true, true, true, true].map
        LedEvent.shiftBit ++ [.latch] ∧
    (tick (holding [[0xA5, 0x0F]] (atStep 7 State.reset))).db.count = 0 := by decide

/-- Hold at tick 16: an empty boundary keeps `cur`, causes no event and counts one idle column. -/
theorem test_tick_hold :
    (tick (atStep 15 { State.reset with cur := unpack [0x80, 0x01] })).cur = unpack [0x80, 0x01] ∧
    (tick (atStep 15 State.reset)).ledTrace = [] ∧ (tick (atStep 15 State.reset)).idleCnt = 1 := by decide

/-- Tick 88: the eleventh empty boundary starts rule 18 with its seed. -/
theorem test_tick_activation :
    (tick (atStep 7 { State.reset with idleCnt := 10 })).queue.map pack = [[0x00, 0x80]] ∧
    (tick (atStep 7 { State.reset with idleCnt := 10 })).au.active = true ∧
    (tick (atStep 7 { State.reset with idleCnt := 10 })).idleCnt = 0 := by decide

/-- The transition table of section 2.6, the circular rows and rule 254 among them. -/
theorem test_automaton_transitions :
    (pack (caNext 18 (unpack [0x00, 0x80])) = [0x01, 0x40] ∧ pack (caNext 30 (unpack [0x00, 0x80])) = [0x01, 0xC0] ∧
    pack (caNext 110 (unpack [0x00, 0x80])) = [0x01, 0x80] ∧ pack (caNext 184 (unpack [0x00, 0x01])) = [0x80, 0x00]) ∧
    (pack (caNext 106 (unpack [0x80, 0x00])) = [0x00, 0x01] ∧ pack (caNext 45 (unpack [0x00, 0x00])) = [0xFF, 0xFF] ∧
    pack (caNext 18 (unpack [0xFF, 0xFF])) = [0x00, 0x00] ∧ pack (caNext 254 (unpack [0x00, 0x80])) = [0x01, 0xC0]) := by
  decide

/-- The generator of `REF` inside rule 18. -/
def inRule18 (frames : Nat) (row prev : List Byte) (stuck : Bool) : State :=
  atStep 7 { State.reset with
    au := { active := true, ridx := 0, row := unpack row, frames := frames, prev := unpack prev, prevValid := true
            stuck := stuck } }

/-- Tick 160: frame 9 repeats frame 8, so the rule is stuck. Tick 168: rule 22 starts with its seed. -/
theorem test_tick_stuck_and_rotate :
    (tick (inRule18 9 [0x00, 0x00] [0x55, 0x55] false)).au.stuck = true ∧
    (tick (inRule18 9 [0x00, 0x00] [0x55, 0x55] false)).au.frames = 10 ∧
    (tick (inRule18 10 [0x00, 0x00] [0x00, 0x00] true)).au.ridx = 1 ∧
    (tick (inRule18 10 [0x00, 0x00] [0x00, 0x00] true)).queue.map pack = [[0x00, 0x80]] := by decide

/-- A PUSH_LINE about to complete while the generator's frame 2 is in the buffer. -/
def pushDuringRule18 : State :=
  { holding [[0x02, 0x20]] (busy .waitSpace 0x1 0 0 [0xAA, 0x55] []) with
    au := (inRule18 3 [0x02, 0x20] [0x01, 0x40] false).au }

/-- Program 4: PUSH-COMPLETE stops the generator and its column joins behind the generated one. -/
theorem test_suspend :
    (after pushDuringRule18).queue.map pack = [[0x02, 0x20], [0xAA, 0x55]] ∧
    (after pushDuringRule18).au.active = false := by decide

/-! ### HOST and reset -/

theorem test_host :
    (after (withEvent (.hostSend 0x67) (start [0x10]))).rx = [0x10, 0x67] ∧
    (after (withEvent (.hostRead 2) { State.reset with tx := [0x08, 0x00, 0x17] })).tx = [0x17] := by decide

/-- Reset in the middle of everything gives the reset state, but for the count of free values. -/
theorem test_reset_event :
    after (withEvent .reset (holding (eight.take 5) { busy .payload 0x5 4 1 [0x02] [0x67] with draws := 3 })) =
      { State.reset with draws := 3 } := by decide

/-- With no event listed, PE moves where it can and the timer ticks where it cannot (log 6). -/
theorem test_empty_schedule : (after (start [0x67])).st.step = 0 ∧ (after State.reset).st.step = 1 := by decide

/-! ### Witnesses: for each obligation with hypotheses, states and operands that meet all of them together -/

theorem witness_WholeCommandRoundTrip :
    Command.WellFormed Config.ref.vp { instr := .pushLine 0xC, payload := [0x80, 0x01] } = true ∧
    Command.WellFormed Config.ref.vp { instr := .regWrite 0xA, payload := [0x12, 0x34] } = true ∧
    Command.WellFormed Config.ref.vp { instr := .reservedF 3, payload := [] } = true := by decide

/-- The first and the last LED. -/
theorem witness_ColumnBitOrder :
    0 < 8 * ([0x80, 0x01] : List Byte).length ∧ 15 < 8 * ([0x80, 0x01] : List Byte).length := by decide

theorem witness_PackUnpackInverse : (seed Config.ref.vp).length = Config.ref.vp := by decide

theorem witness_StepRunsDecodedInstruction :
    (start [0x67, 0x40]).pe.state = .idle ∧ (start [0x67, 0x40]).rx = 0x67 :: [0x40] ∧
    decode (start [0x67, 0x40]).cfg.opc (start [0x67, 0x40]).rx = .ok (.ping 7, [0x40]) ∧
    (start [0x67, 0x40]).inputs = [] ∧ (withEvent .pe (start [0x67, 0x40])).inputs.head? = some .pe :=
  ⟨rfl, rfl, rfl, rfl, rfl⟩

/-- One state for each parser state, each with the turn as an event or without one. -/
theorem witness_StepContinuesCommandInProgress :
    ((busy .payload 0x5 4 1 [0x02] [0x00]).pe.state = .payload ∧ (busy .payload 0x5 4 1 [0x02] [0x00]).rx ≠ [] ∧
      (busy .payload 0x5 4 1 [0x02] [0x00]).inputs = []) ∧
    ((busy .waitSpace 0x1 0 0 [0x02, 0x00] []).pe.state = .waitSpace ∧
      (holding (eight.take 7) (busy .waitSpace 0x1 0 0 [0x02, 0x00] [])).db.count < Config.ref.cap) ∧
    ((busy .waitEmpty 0x2 0 0 [] []).pe.state = .waitEmpty ∧ (busy .waitEmpty 0x2 0 0 [] []).db.count = 0 ∧
      (withEvent .pe (busy .waitEmpty 0x2 0 0 [] [])).inputs.head? = some .pe) := by decide

/-- All four ways to wait. -/
theorem witness_EngineWaitsUntilEnabled :
    (withEvent .pe State.reset).inputs = .pe :: [] ∧
    ((withEvent .pe State.reset).pe.state = .idle ∧ (withEvent .pe State.reset).rx = []) ∧
    ((busy .payload 0x5 4 1 [0x02] []).pe.state = .payload ∧ (busy .payload 0x5 4 1 [0x02] []).rx = []) ∧
    ((busy .waitSpace 0x1 0 0 [1, 2] []).pe.state = .waitSpace ∧
      Config.ref.cap ≤ (holding eight (busy .waitSpace 0x1 0 0 [1, 2] [])).db.count) ∧
    ((busy .waitEmpty 0x2 0 0 [] []).pe.state = .waitEmpty ∧
      (holding [[0, 1]] (busy .waitEmpty 0x2 0 0 [] [])).db.count ≠ 0) := by decide

/-- In WAIT_SPACE with a full buffer, the busiest the core can be. -/
theorem witness_TickIsNeverBlocked :
    (withEvent .tick (holding eight (busy .waitSpace 0x1 0 0 [1, 2] []))).inputs = .tick :: [] := by decide

theorem witness_HostOnlyMovesStreamBytes :
    (withEvent (.hostSend 0x67) State.reset).inputs = .hostSend 0x67 :: [] ∧
    (withEvent (.hostRead 1) State.reset).inputs = .hostRead 1 :: [] := by decide

theorem witness_ResetRestoresEveryElement :
    (withEvent .reset (holding eight (busy .waitSpace 0x1 0 0 [1, 2] []))).inputs = .reset :: [] := by decide

/-- A configuration that meets the constraints, and one that does not. -/
theorem witness_BootRefusesIllegalConfigurations :
    RawConfig.ref.ok = true ∧ RawConfig.ok { RawConfig.ref with cap := 256 } = false := by decide

theorem witness_NoOpHasNoEffect :
    (withEvent .pe (start [0x0F, 0x67])).pe.state = .idle ∧ (withEvent .pe (start [0x0F, 0x67])).rx = 0x0F :: [0x67] ∧
    (withEvent .pe (start [0x0F, 0x67])).inputs = .pe :: [] ∧ (0x0F : Byte).extractLsb' 4 4 = Config.ref.opc.noOp := by
  decide

/-- The first and the last reserved command byte. -/
theorem witness_UnassignedOpcodeIsIgnored :
    (0x70 : Byte).extractLsb' 4 4 ∉ Config.ref.opc.assigned ∧ (0xFF : Byte).extractLsb' 4 4 ∉ Config.ref.opc.assigned ∧
    (withEvent .pe (start [0xFF, 0x67])).pe.state = .idle ∧ (withEvent .pe (start [0xFF, 0x67])).rx = 0xFF :: [0x67] ∧
    (withEvent .pe (start [0xFF, 0x67])).inputs = .pe :: [] := by decide

theorem witness_ClearBufferEmptiesOnlyTheBuffer :
    (start [0x30]).db.head < Config.ref.cap ∧ (start [0x30]).db.count = 0 ∧
    (holding (eight.take 5) State.reset).db.head < Config.ref.cap := by decide

/-- Every defined register, with what REF reads with five columns buffered, and the ends of the reserved range. -/
theorem witness_RegReadAnswersTheRegister :
    (∀ r ∈ ([0, 1, 2, 3, 4, 5] : List Nibble), r.toNat ≤ 5) ∧
    ([0, 1, 2, 3, 4, 5] : List Nibble).map (fun r => (readReg r (holding (eight.take 5) State.reset)).1) =
      [0x0010, 0x000A, 0x0258, 0x0100, 0x0100, 0x0805] ∧
    ¬ (6 : Nibble).toNat ≤ 5 ∧ ¬ (15 : Nibble).toNat ≤ 5 := by decide

theorem witness_RegWriteAsksForTwoBytes : (busy .idle 0x5 4 0 [] [0x02, 0x00]).pe.state = .idle := by decide

theorem witness_CollectStoresPayloadByte :
    (busy .payload 0x5 4 2 [] [0x02, 0x00]).pe.state = .payload ∧
    (busy .payload 0x5 4 2 [] [0x02, 0x00]).rx = 0x02 :: [0x00] ∧ 1 < (busy .payload 0x5 4 2 [] [0x02, 0x00]).pe.need := by
  decide

theorem witness_RegWriteCompletes :
    (busy .payload 0x5 4 1 [0x02] [0x00]).pe.state = .payload ∧ (busy .payload 0x5 4 1 [0x02] [0x00]).pe.buf = [0x02] ∧
    (busy .payload 0x5 4 1 [0x02] [0x00]).pe.need = 1 ∧ (busy .payload 0x5 4 1 [0x02] [0x00]).rx = 0x00 :: [] := by
  decide

/-- A read-only register and a reserved index. -/
theorem witness_ReadOnlyRegistersIgnoreWrites :
    ((0 : Nibble) ≠ 3 ∧ (0 : Nibble) ≠ 4) ∧ ((0xF : Nibble) ≠ 3 ∧ (0xF : Nibble) ≠ 4) := by decide

theorem witness_PushLineAsksForAColumn : (busy .idle 0x1 0xC 0 [] [0x80, 0x01]).pe.state = .idle := by decide

theorem witness_PushLineArmsTheWait :
    (busy .payload 0x1 0 1 [0x80] [0x01]).pe.state = .payload ∧ (busy .payload 0x1 0 1 [0x80] [0x01]).rx = 0x01 :: [] ∧
    (busy .payload 0x1 0 1 [0x80] [0x01]).pe.need = 1 := by decide

/-- An empty buffer meets the buffer's invariant. -/
theorem bufferOk_empty : BufferOk Config.ref State.reset.db :=
  ⟨by decide, by decide, by decide⟩

/-- So does a buffer with one free slot, and a full one. -/
theorem bufferOk_seven_and_eight :
    BufferOk Config.ref (holding (eight.take 7) State.reset).db ∧ BufferOk Config.ref (holding eight State.reset).db :=
  ⟨⟨by decide, by decide, by decide⟩, ⟨by decide, by decide, by decide⟩⟩

/-- The last free slot. -/
theorem witness_PushLineCompletes :
    BufferOk Config.ref (holding (eight.take 7) (busy .waitSpace 0x1 0 0 [0x12, 0x34] [])).db ∧
    (holding (eight.take 7) (busy .waitSpace 0x1 0 0 [0x12, 0x34] [])).pe.state = .waitSpace ∧
    (holding (eight.take 7) (busy .waitSpace 0x1 0 0 [0x12, 0x34] [])).db.count < Config.ref.cap :=
  ⟨bufferOk_seven_and_eight.1, rfl, by decide⟩

theorem witness_PushLineWaitsForSpace :
    (holding eight (busy .waitSpace 0x1 0 0 [0x12, 0x34] [])).pe.state = .waitSpace ∧
    (holding eight (busy .waitSpace 0x1 0 0 [0x12, 0x34] [])).db.count = Config.ref.cap := by decide

theorem witness_FlushStartsToWait : (busy .idle 0x2 0xA 0 [] []).pe.state = .idle := by decide

theorem witness_FlushCompletesWhenEmpty :
    (busy .waitEmpty 0x2 0 0 [] []).pe.state = .waitEmpty ∧ (busy .waitEmpty 0x2 0 0 [] []).db.count = 0 := by decide

theorem witness_FlushWaitsWhileColumnsRemain :
    (holding [[0, 1]] (busy .waitEmpty 0x2 0 0 [] [])).pe.state = .waitEmpty ∧
    (holding [[0, 1]] (busy .waitEmpty 0x2 0 0 [] [])).db.count ≠ 0 := by decide

/-- Register 4, and a reserved index. -/
theorem witness_WholeRegWrite :
    { start [0x54, 0x02, 0x00] with inputs := [.pe, .pe, .pe] }.inputs = .pe :: .pe :: .pe :: [] ∧
    (start [0x54, 0x02, 0x00]).pe.state = .idle ∧ (start [0x54, 0x02, 0x00]).rx = 0x54 :: 0x02 :: 0x00 :: [] ∧
    (0x54 : Byte).extractLsb' 4 4 = Config.ref.opc.regWrite ∧ (0x54 : Byte).extractLsb' 0 4 = 4 ∧
    (0x5A : Byte).extractLsb' 4 4 = Config.ref.opc.regWrite ∧ (0x5A : Byte).extractLsb' 0 4 = 0xA := by decide

/-- An empty buffer, so that the response is one less than CAP; four turns of PE. -/
def wholePush : State := { start [0x10, 0x80, 0x01, 0x67] with inputs := [.pe, .pe, .pe, .pe] }

theorem witness_WholePushLine :
    BufferOk Config.ref wholePush.db ∧ wholePush.inputs = List.replicate (Config.ref.vp / 8 + 2) .pe ++ [] ∧
    wholePush.pe.state = .idle ∧ wholePush.rx = 0x10 :: ([0x80, 0x01] ++ [0x67]) ∧
    ([0x80, 0x01] : List Byte).length = Config.ref.vp / 8 ∧
    (0x10 : Byte).extractLsb' 4 4 = Config.ref.opc.pushLine ∧ wholePush.db.count < Config.ref.cap :=
  ⟨bufferOk_empty, by decide, rfl, rfl, rfl, rfl, by decide⟩

theorem witness_FrameOfOneByteCommands :
    (Instr.ping 7).row ≠ 1 ∧ (Instr.ping 7).row ≠ 2 ∧ (Instr.ping 7).row ≠ 3 ∧ (Instr.ping 7).row ≠ 5 ∧
    exec (.ping 7) State.reset = .next { State.reset with tx := [0x17] } := ⟨by decide, by decide, by decide, by decide, rfl⟩

theorem witness_FrameOfFlushAndRegWrite :
    exec (.flushBuffer 0) State.reset = .next (State.reset.setPe .waitEmpty) ∧
    exec (.regWrite 4) (busy .payload 0x5 4 1 [0x00] [0x80]) =
      .next { busy .idle 0x5 4 0 [0x00, 0x80] [] with reg := { aspect := 0x0100, duty := 0x0080 } } := ⟨rfl, rfl⟩

/-- A push into the last free slot, slot 7, and another slot. -/
theorem witness_FrameOfPushLine :
    exec (.pushLine 0) (holding (eight.take 7) (busy .waitSpace 0x1 0 0 [0x12, 0x34] [])) =
      .next (pushComplete (holding (eight.take 7) (busy .waitSpace 0x1 0 0 [0x12, 0x34] []))) ∧
    6 ≠ (holding (eight.take 7) (busy .waitSpace 0x1 0 0 [0x12, 0x34] [])).db.tail Config.ref.cap := ⟨rfl, by decide⟩

/-- The empty buffer, one with a free slot, and a full one. -/
theorem witness_BufferIsABoundedQueue :
    (BufferOk Config.ref State.reset.db ∧ State.reset.db.q 16 8 = []) ∧ (seed 16).length = Config.ref.vp ∧
    (BufferOk Config.ref (holding (eight.take 7) State.reset).db ∧
      ((holding (eight.take 7) State.reset).db.q 16 8).length < Config.ref.cap) ∧
    (BufferOk Config.ref (holding eight State.reset).db ∧ ((holding eight State.reset).db.q 16 8).length = Config.ref.cap ∧
      (holding eight State.reset).db.q 16 8 = unpack [0x80, 0x01] :: ((holding eight State.reset).db.q 16 8).tail) :=
  ⟨⟨bufferOk_empty, by decide⟩, by decide, ⟨bufferOk_seven_and_eight.1, by decide⟩,
    ⟨bufferOk_seven_and_eight.2, by decide, by decide⟩⟩

theorem witness_StepperPeriodicity : (atStep 79 State.reset).st.step < Config.ref.rs := by decide

theorem witness_NominalColumnsDivideTheRotation : State.reset.reg.aspect = 0x0100 := by decide

/-- The generator suspended, and active. -/
theorem witness_BoundaryShowsTheOldestColumn :
    BufferOk Config.ref (holding [[0x80, 0x01]] (atStep 7 State.reset)).db ∧
    (holding [[0x80, 0x01]] (atStep 7 State.reset)).queue = unpack [0x80, 0x01] :: [] ∧
    ((atStep 7 State.reset).st.step + 1) % Config.ref.rs % csteps (atStep 7 State.reset) = 0 ∧
    ¬ ((holding [[0x80, 0x01]] (atStep 7 State.reset)).pe.state = .idle ∧
      (holding [[0x80, 0x01]] (atStep 7 State.reset)).au.active = true) ∧
    ((holding [[0x80, 0x01]] (inRule18 2 [1, 0x40] [0, 0x80] false)).queue = unpack [0x80, 0x01] :: [] ∧
      (inRule18 2 [1, 0x40] [0, 0x80] false).pe.state = .idle ∧
      (inRule18 2 [1, 0x40] [0, 0x80] false).au.active = true) :=
  ⟨⟨by decide, by decide, by decide⟩, by decide, by decide, by decide, by decide⟩

/-- An empty boundary, and a tick between boundaries. -/
theorem witness_OtherTicksHoldTheColumn :
    (atStep 7 State.reset).db.count = 0 ∧
    ((atStep 8 State.reset).st.step + 1) % Config.ref.rs % csteps (atStep 8 State.reset) ≠ 0 := by decide

/-- The first and the last cell of a row. -/
theorem witness_AutomatonTransition : 0 < (seed 16).length ∧ 15 < (seed 16).length := by decide

/-- The boundary before the last idle one, and the last one. -/
theorem witness_FallbackActivation :
    BufferOk Config.ref (atStep 7 State.reset).db ∧
    ((atStep 7 State.reset).pe.state = .idle ∧ (atStep 7 State.reset).au.active = false ∧
      (atStep 7 State.reset).db.count = 0 ∧
      ((atStep 7 State.reset).st.step + 1) % Config.ref.rs % csteps (atStep 7 State.reset) = 0) ∧
    9 + 1 < Config.ref.idleColumns ∧ 10 < Config.ref.idleColumns ∧ 10 + 1 = Config.ref.idleColumns :=
  ⟨bufferOk_empty, by decide, by decide, by decide, by decide⟩

/-- A spent budget (12 frames, or stuck at 4), an unspent one after frames, and a rule that has shown none. -/
theorem witness_ActiveGeneratorShowsTheNextFrame :
    BufferOk Config.ref (inRule18 4 [0, 0] [0, 0] true).db ∧
    ((inRule18 4 [0, 0] [0, 0] true).pe.state = .idle ∧ (inRule18 4 [0, 0] [0, 0] true).au.active = true ∧
      (inRule18 4 [0, 0] [0, 0] true).db.count ≤ 1 ∧
      ((inRule18 4 [0, 0] [0, 0] true).st.step + 1) % Config.ref.rs % csteps (inRule18 4 [0, 0] [0, 0] true) = 0) ∧
    (Config.ref.af ≤ 12 ∧ Config.ref.amf ≤ 4 ∧ ¬ Config.ref.af ≤ 11 ∧ ¬ Config.ref.amf ≤ 3) ∧
    ((inRule18 4 [0, 0] [0, 0] true).au.stuck = true ∧ (inRule18 0 [0, 0x80] [0, 0] false).au.frames = 0 ∧
      (inRule18 11 [0, 0x80] [0, 0] false).au.frames ≠ 0) :=
  ⟨⟨by decide, by decide, by decide⟩, by decide, by decide, by decide⟩

theorem witness_GeneratorPausesForTheEngine :
    (busy .waitEmpty 0x2 0 0 [] []).pe.state ≠ .idle ∧
    ((holding [[0, 1]] (atStep 7 State.reset)).pe.state = .idle ∧
      (holding [[0, 1]] (atStep 7 State.reset)).au.active = false ∧ (holding [[0, 1]] (atStep 7 State.reset)).db.count ≠ 0 ∧
      ((atStep 7 State.reset).st.step + 1) % Config.ref.rs % csteps (atStep 7 State.reset) = 0) := by decide

/-- A good state that is busy: a PUSH_LINE waits on a full buffer, seven steps into the rotation. -/
def waitingPush : State := atStep 7 (holding eight (busy .waitSpace 0x1 0 0 [0x12, 0x34] []))

/-- A good state that is busy: a FLUSH_BUFFER waits with two columns in the buffer. -/
def waitingFlush : State := atStep 3 (holding (eight.take 2) (busy .waitEmpty 0x2 0 0 [] [0x67]))

theorem waitingPush_good : GoodState waitingPush :=
  ⟨⟨by decide, by decide, by decide⟩, ⟨by decide, by decide, by decide⟩, ⟨by decide, by decide, by decide⟩,
    ⟨by decide, by decide⟩, ⟨by decide, by decide, by decide⟩, ⟨by decide, by decide, by decide, by decide⟩, by decide,
    by decide⟩

theorem waitingFlush_good : GoodState waitingFlush :=
  ⟨⟨by decide, by decide, by decide⟩, ⟨by decide, by decide, by decide⟩, ⟨by decide, by decide, by decide⟩,
    ⟨by decide, by decide⟩, ⟨by decide, by decide, by decide⟩, ⟨by decide, by decide, by decide, by decide⟩, by decide,
    by decide⟩

/-- A state that is reset but for the buffer, the parser, the streams and the events is good if those are. -/
theorem goodState_of_parts {s : State} (hb : BufferOk Config.ref s.db) (he : EngineOk Config.ref s.pe)
    (h : s = { State.reset with db := s.db, pe := s.pe, rx := s.rx, tx := s.tx, inputs := s.inputs }) : GoodState s := by
  have hr : RegistersOk Config.ref State.reset.reg := ⟨by decide, by decide, by decide⟩
  have hs : StepperOk Config.ref State.reset.st := ⟨by decide, by decide, by decide⟩
  have hd : DisplayOk Config.ref State.reset.cur State.reset.led := ⟨by decide, by decide⟩
  have ha : AutomatonOk Config.ref State.reset.au := ⟨by decide, by decide, by decide⟩
  rw [h]
  exact ⟨hb, hr, hs, hd, ha, he, Nat.zero_le _, fun h => Bool.noConfusion h⟩

theorem witness_EveryStepKeepsTheInvariant : GoodState waitingPush ∧ step waitingPush = .next (tick waitingPush) :=
  ⟨waitingPush_good, rfl⟩

theorem witness_ConfigurationIsConstant :
    step waitingPush = .next (tick waitingPush) ∧ (0 : Nibble).toNat ≤ 2 ∧ (2 : Nibble).toNat ≤ 2 :=
  ⟨rfl, by decide, by decide⟩

/-- PE's turn as an event, and as an empty list of events. -/
theorem witness_OnlyTicksMoveTheDisplay :
    ((withEvent .pe (start [0x67])).inputs = .pe :: [] ∧ Event.pe ≠ .tick ∧ Event.pe ≠ .reset) ∧
    step (withEvent .pe (start [0x67])) = .next { busy .idle 0x6 7 0 [] [] with tx := [0x17] } ∧
    ((start [0x67]).inputs = [] ∧ peEnabled (start [0x67]) = true) ∧
    step (start [0x67]) = .next { busy .idle 0x6 7 0 [] [] with tx := [0x17] } :=
  ⟨by decide, rfl, by decide, rfl⟩

/-- Good states with columns: reset, a host event, PUSH-COMPLETE as event, a waiting engine whose empty list of events
makes it TICK's turn, on a boundary and off one. -/
theorem witness_BufferIsFirstInFirstOut :
    GoodState (withEvent .reset waitingPush) ∧ GoodState (withEvent (.hostSend 0x67) waitingPush) ∧
    (GoodState waitingPush ∧ waitingPush.inputs = [] ∧ peEnabled waitingPush = false ∧
      (waitingPush.st.step + 1) % Config.ref.rs % csteps waitingPush = 0 ∧
      waitingPush.queue = unpack [0x80, 0x01] :: waitingPush.queue.tail) ∧
    (GoodState waitingFlush ∧ waitingFlush.inputs = [] ∧ peEnabled waitingFlush = false ∧
      (waitingFlush.st.step + 1) % Config.ref.rs % csteps waitingFlush ≠ 0) :=
  ⟨⟨waitingPush_good.buffer, waitingPush_good.registers, waitingPush_good.stepper, waitingPush_good.display,
      waitingPush_good.automaton, waitingPush_good.engine, waitingPush_good.idle, waitingPush_good.one⟩,
    ⟨waitingPush_good.buffer, waitingPush_good.registers, waitingPush_good.stepper, waitingPush_good.display,
      waitingPush_good.automaton, waitingPush_good.engine, waitingPush_good.idle, waitingPush_good.one⟩,
    ⟨waitingPush_good, by decide, by decide, by decide, by decide⟩,
    ⟨waitingFlush_good, by decide, by decide, by decide⟩⟩

/-- On PE's turn: a CLEAR_BUFFER to dispatch, a column to push with the last free slot, and a NO_OP. -/
theorem witness_BufferIsFirstInFirstOut_engine :
    (GoodState (holding (eight.take 5) (start [0x30])) ∧ peEnabled (holding (eight.take 5) (start [0x30])) = true ∧
      (start [0x30]).rx = 0x30 :: [] ∧ (0x30 : Byte).extractLsb' 4 4 = Config.ref.opc.clearBuffer) ∧
    (GoodState (withEvent .pe (holding (eight.take 7) (busy .waitSpace 0x1 0 0 [0x12, 0x34] []))) ∧
      (holding (eight.take 7) (busy .waitSpace 0x1 0 0 [0x12, 0x34] [])).db.count < Config.ref.cap) ∧
    (GoodState (start [0x00]) ∧ (0x00 : Byte).extractLsb' 4 4 ≠ Config.ref.opc.clearBuffer) :=
  ⟨⟨goodState_of_parts ⟨by decide, by decide, by decide⟩ ⟨by decide, by decide, by decide, by decide⟩ rfl,
      by decide, by decide, by decide⟩,
    ⟨goodState_of_parts ⟨by decide, by decide, by decide⟩ ⟨by decide, by decide, by decide, by decide⟩ rfl, by decide⟩,
    ⟨goodState_of_parts ⟨by decide, by decide, by decide⟩ ⟨by decide, by decide, by decide, by decide⟩ rfl, by decide⟩⟩

/-- On TICK's turn at a boundary with the buffer empty: the generator starts, and it does not yet. -/
theorem witness_BufferIsFirstInFirstOut_generator :
    (GoodState (withEvent .tick (atStep 7 { State.reset with idleCnt := 10 })) ∧
      Config.ref.idleColumns ≤ 10 + 1 ∧ (atStep 7 State.reset).queue = []) ∧
    (GoodState (withEvent .tick (atStep 7 { State.reset with idleCnt := 9 })) ∧ ¬ Config.ref.idleColumns ≤ 9 + 1) :=
  ⟨⟨⟨⟨by decide, by decide, by decide⟩, ⟨by decide, by decide, by decide⟩, ⟨by decide, by decide, by decide⟩,
        ⟨by decide, by decide⟩, ⟨by decide, by decide, by decide⟩, ⟨by decide, by decide, by decide, by decide⟩,
        by decide, by decide⟩, by decide, by decide⟩,
    ⟨⟨⟨by decide, by decide, by decide⟩, ⟨by decide, by decide, by decide⟩, ⟨by decide, by decide, by decide⟩,
        ⟨by decide, by decide⟩, ⟨by decide, by decide, by decide⟩, ⟨by decide, by decide, by decide, by decide⟩,
        by decide, by decide⟩, by decide⟩⟩

/-- The same two turns. -/
theorem witness_EngineConsumesInOrder :
    (withEvent .pe (start [0x67])).inputs.head? = some .pe ∧
    step (withEvent .pe (start [0x67])) = .next { busy .idle 0x6 7 0 [] [] with tx := [0x17] } ∧
    ((start [0x67]).inputs = [] ∧ peEnabled (start [0x67]) = true) ∧
    step (start [0x67]) = .next { busy .idle 0x6 7 0 [] [] with tx := [0x17] } :=
  ⟨by decide, rfl, by decide, rfl⟩

theorem witness_CommandsDoNotSeeTheDisplay :
    exec (.regRead 5) State.reset = .next { State.reset with tx := [0x08, 0x00] } := rfl

theorem witness_FlushEndsWithinItsColumns : GoodState waitingFlush ∧ waitingFlush.pe.state = .waitEmpty :=
  ⟨waitingFlush_good, by decide⟩

theorem witness_PushEndsWithinOneColumn : GoodState waitingPush ∧ waitingPush.pe.state = .waitSpace :=
  ⟨waitingPush_good, by decide⟩

end Sys2Proof.Tests
end

section
/-! The bit order of a payload's column (`20_memory.md` R63): what `unpack` puts at each LED. -/

namespace Sys2Proof.Machine

@[simp] theorem byteBits_length (b : Byte) : (byteBits b).length = 8 := rfl

theorem byteBits_getD (b : Byte) {j : Nat} (hj : j < 8) : (byteBits b).getD j false = b.getLsbD (7 - j) := by
  interval_cases j <;> rfl

@[simp] theorem unpack_nil : unpack [] = [] := rfl

@[simp] theorem unpack_cons (b : Byte) (bytes : List Byte) : unpack (b :: bytes) = byteBits b ++ unpack bytes := rfl

@[simp] theorem unpack_length (bytes : List Byte) : (unpack bytes).length = 8 * bytes.length := by
  induction bytes with
  | nil => rfl
  | cons b bytes ih =>
    rw [unpack_cons, List.length_append, byteBits_length, ih, List.length_cons]
    omega

/-- No bound on `i` is needed: past the last byte both sides read `false`. The induction takes one byte off the front:
an LED below 8 lies in that byte, any other is LED `i - 8` of the column of the bytes behind it. -/
theorem unpack_getD (bytes : List Byte) (i : Nat) :
    (unpack bytes).getD i false = (bytes.getD (i / 8) 0#8).getLsbD (7 - i % 8) := by
  induction bytes generalizing i with
  | nil => simp
  | cons b bytes ih =>
    rw [unpack_cons]
    rcases Nat.lt_or_ge i 8 with hi | hi
    · rw [List.getD_append _ _ _ _ hi, byteBits_getD b hi, Nat.div_eq_of_lt hi, Nat.mod_eq_of_lt hi,
        List.getD_cons_zero]
    · have hdiv : i / 8 = (i - 8) / 8 + 1 := by omega
      have hmod : i % 8 = (i - 8) % 8 := by omega
      rw [List.getD_append_right _ _ _ _ hi, byteBits_length, ih, hdiv, hmod, List.getD_cons_succ]

/-- Settles O6: the PUSH_LINE operand is `unpack` of the payload, whose width and LEDs are known byte by byte. -/
theorem columnBitOrder : Obligations.ColumnBitOrder :=
  fun bytes => ⟨unpack_length bytes, fun i _ => unpack_getD bytes i⟩

end Sys2Proof.Machine
end

section
/-! The payload length of a command byte (`30_encoding.md` R91, R93): the opcode nibble picks the table row, and the
row the command format. The second step is the same for every `OPC`; the first needs that `OPC` is injective. -/

namespace Sys2Proof

/-- One length per row: only PUSH_LINE's and REG_WRITE's rows have a payload. -/
theorem Instr.payloadLen_eq_of_row (vp : Nat) (i : Instr) :
    i.payloadLen vp = if i.row = 1 then vp / 8 else if i.row = 5 then 2 else 0 := by
  cases i <;> rfl

/-- Without repetitions, row `k` is the row of exactly the nibble that stands there. -/
theorem Opc.idxOf_rows_eq_iff {o : Opc} (h : o.assigned.Nodup) {k : Nat} (hk : k < o.rows.length) (op : Nibble) :
    o.rows.idxOf op = k ↔ op = o.rows[k] := by
  constructor
  · rintro rfl
    exact (List.getElem_idxOf hk).symm
  · rintro rfl
    exact (Opc.rows_nodup h).idxOf_getElem k hk

/-- The row of a decoded byte is the place of its opcode nibble among the rows, whatever the immediate. -/
theorem row_decodeByte {o : Opc} (h : o.assigned.Nodup) (b : Byte) :
    (decodeByte o b).row = o.rows.idxOf (opcodeField b) := by
  have hlt : o.rows.idxOf (opcodeField b) < 16 :=
    Opc.rows_length h ▸ List.idxOf_lt_length_of_mem (Opc.mem_rows o _)
  exact Instr.row_ofRow hlt _

theorem row_decodeByte_eq_iff {o : Opc} (h : o.assigned.Nodup) (b : Byte) {k : Nat} (hk : k < o.rows.length) :
    (decodeByte o b).row = k ↔ opcodeField b = o.rows[k] := by
  rw [row_decodeByte h, Opc.idxOf_rows_eq_iff h hk]

/-- Settles O4: the row tells the length, and PUSH_LINE's and REG_WRITE's nibbles are the only ones in their rows. -/
theorem payloadLengthFromOpcodeAlone : Obligations.PayloadLengthFromOpcodeAlone := by
  intro c b
  have hlen := Opc.rows_length c.opc_nodup
  have hpush : (decodeByte c.opc b).row = 1 ↔ opcodeField b = c.opc.pushLine :=
    row_decodeByte_eq_iff c.opc_nodup b (by omega)
  have hwrite : (decodeByte c.opc b).row = 5 ↔ opcodeField b = c.opc.regWrite :=
    row_decodeByte_eq_iff c.opc_nodup b (by omega)
  simp only [Instr.payloadLen_eq_of_row, hpush, hwrite]

end Sys2Proof
end

section
/-! A step of the Protocol Engine (`40_protocol_engine.md` R120 to R122): which instruction it runs, told by the parser
state, and what collecting a payload byte does. Nothing here is about one command. -/

namespace Sys2Proof

/-- The opcode nibble of row `k` is decoded to row `k`'s instruction. -/
theorem instrOf_rows {o : Opc} (h : o.assigned.Nodup) {k : Nat} (hk : k < o.rows.length) (e : Nibble) :
    instrOf o o.rows[k] e = Instr.ofRow k e := by
  rw [instrOf, (Opc.idxOf_rows_eq_iff h hk _).mpr rfl]

end Sys2Proof

namespace Sys2Proof.Machine

/-- A run goes on from where its first step leads: one step of any machine, used here for `core`. -/
theorem run_succ_of_step {M : Host.Core} {s t : M.State} (k : Nat) (h : M.step s = .next t) :
    M.run (k + 1) s = M.run k t := by
  simp only [Host.Core.run, h]

theorem step_pe {s : State} {es : List Event} (h : s.inputs = .pe :: es) : step s = peStep (dropInput s) := by
  rw [step, h]
  rfl

/-- DISPATCH: in IDLE the front byte is taken and decoded. -/
theorem peStep_idle {s : State} {b : Byte} {rest : List Byte} (hst : s.pe.state = .idle) (hrx : s.rx = b :: rest) :
    peStep s = exec (decodeByte s.cfg.opc b) (takeCommandByte s b rest) := by
  simp [peStep, fetch, peEnabled, hst, hrx]

/-- COLLECT: in PAYLOAD the command in progress goes on. -/
theorem peStep_payload {s : State} {p : Byte} {rest : List Byte} (hst : s.pe.state = .payload)
    (hrx : s.rx = p :: rest) : peStep s = exec (inProgress s) s := by
  simp [peStep, fetch, peEnabled, hst, hrx]

theorem collect_more {s : State} {p : Byte} {rest : List Byte} (finish : State → State) (hrx : s.rx = p :: rest)
    (hneed : 1 < s.pe.need) : s.collect finish = s.takePayload p rest := by
  simp only [State.collect, hrx]
  exact if_neg (by omega)

theorem collect_last {s : State} {p : Byte} {rest : List Byte} (finish : State → State) (hrx : s.rx = p :: rest)
    (hneed : s.pe.need = 1) : s.collect finish = finish (s.takePayload p rest) := by
  simp only [State.collect, hrx]
  exact if_pos (by omega)

end Sys2Proof.Machine
end

section
/-! REG_WRITE (`40_protocol_engine.md` R129), step by step: DISPATCH, a first payload byte, the last payload byte with
the clamped write of R212. -/

namespace Sys2Proof

theorem instrOf_regWrite {o : Opc} (h : o.assigned.Nodup) (r : Nibble) : instrOf o o.regWrite r = .regWrite r :=
  instrOf_rows (k := 5) h (by rw [Opc.rows_length h]; decide) r

theorem decodeByte_regWrite {o : Opc} (h : o.assigned.Nodup) {b : Byte} (hb : opcodeField b = o.regWrite) :
    decodeByte o b = .regWrite (immediateField b) := by
  rw [decodeByte, hb, instrOf_regWrite h]

end Sys2Proof

namespace Sys2Proof.Machine

/-! ### The register written -/

theorem writeReg_aspect_toNat (i : Nibble) (v : Half) (s : State) :
    (writeReg i v s).reg.aspect.toNat =
      if i = 3 then max s.cfg.aspectMin.toNat (min v.toNat s.cfg.aspectMax.toNat) else s.reg.aspect.toNat := by
  by_cases h3 : i = 3
  · rw [if_pos h3, h3, writeReg_aspect]
    exact clampHalf_toNat s.cfg.aspectRange
  · rw [if_neg h3]
    by_cases h4 : i = 4
    · rw [h4, writeReg_duty]
    · rw [writeReg_other v s h3 h4]

theorem writeReg_duty_toNat (i : Nibble) (v : Half) (s : State) :
    (writeReg i v s).reg.duty.toNat = if i = 4 then min v.toNat s.cfg.dutyMax.toNat else s.reg.duty.toNat := by
  by_cases h4 : i = 4
  · rw [if_pos h4, h4, writeReg_duty]
    exact minHalf_toNat v s.cfg.dutyMax
  · rw [if_neg h4]
    by_cases h3 : i = 3
    · rw [h3, writeReg_aspect]
    · rw [writeReg_other v s h3 h4]

/-! ### The meaning in each parser state that the command reaches -/

theorem exec_regWrite_idle {s : State} (r : Nibble) (hst : s.pe.state = .idle) :
    exec (.regWrite r) s = .next (s.awaitPayload 2) := by
  simp only [exec, execRegWrite, hst]

theorem exec_regWrite_more {s : State} {p : Byte} {rest : List Byte} (r : Nibble) (hst : s.pe.state = .payload)
    (hrx : s.rx = p :: rest) (hneed : 1 < s.pe.need) : exec (.regWrite r) s = .next (s.takePayload p rest) := by
  simp only [exec, execRegWrite, hst, collect_more _ hrx hneed]

theorem exec_regWrite_last {s : State} {p : Byte} {rest : List Byte} (r : Nibble) (hst : s.pe.state = .payload)
    (hrx : s.rx = p :: rest) (hneed : s.pe.need = 1) :
    exec (.regWrite r) s =
      .next ((writeReg r (valueOperand (s.pe.buf ++ [p])) (s.takePayload p rest)).setPe .idle) := by
  simp only [exec, execRegWrite, hst, collect_last _ hrx hneed, takePayload_pe]

/-! ### The same as PE's turns of the whole machine -/

theorem step_regWrite_dispatch {s : State} {b : Byte} {rest : List Byte} {es : List Event} (hin : s.inputs = .pe :: es)
    (hst : s.pe.state = .idle) (hrx : s.rx = b :: rest) (hb : opcodeField b = s.cfg.opc.regWrite) :
    step s = .next ((takeCommandByte (dropInput s) b rest).awaitPayload 2) := by
  rw [step_pe hin, peStep_idle (s := dropInput s) hst hrx, dropInput_cfg, decodeByte_regWrite s.cfg.opc_nodup hb]
  exact exec_regWrite_idle _ hst

section
variable {s : State} {p : Byte} {rest : List Byte} {es : List Event}

/-- A REG_WRITE in progress, in PAYLOAD, has PE's turn. -/
theorem step_regWrite_payload (hin : s.inputs = .pe :: es) (hst : s.pe.state = .payload) (hrx : s.rx = p :: rest)
    (hop : s.pe.op = s.cfg.opc.regWrite) : step s = exec (.regWrite s.pe.imm) (dropInput s) := by
  rw [step_pe hin, peStep_payload (s := dropInput s) hst hrx, inProgress, dropInput_cfg, dropInput_pe, hop,
    instrOf_regWrite s.cfg.opc_nodup]

theorem step_regWrite_more (hin : s.inputs = .pe :: es) (hst : s.pe.state = .payload) (hrx : s.rx = p :: rest)
    (hop : s.pe.op = s.cfg.opc.regWrite) (hneed : 1 < s.pe.need) :
    step s = .next ((dropInput s).takePayload p rest) :=
  (step_regWrite_payload hin hst hrx hop).trans (exec_regWrite_more _ hst hrx hneed)

theorem step_regWrite_last (hin : s.inputs = .pe :: es) (hst : s.pe.state = .payload) (hrx : s.rx = p :: rest)
    (hop : s.pe.op = s.cfg.opc.regWrite) (hneed : s.pe.need = 1) :
    step s = .next ((writeReg s.pe.imm (valueOperand (s.pe.buf ++ [p]))
      ((dropInput s).takePayload p rest)).setPe .idle) :=
  (step_regWrite_payload hin hst hrx hop).trans (exec_regWrite_last _ hst hrx hneed)

end

/-! ### The whole command -/

/-- `s` after the three bytes of a REG_WRITE have left `rx` and three events are used, the register not yet written. -/
def regWriteCollected (s : State) (cmd p0 p1 : Byte) (rest : List Byte) (es : List Event) : State :=
  { s with
    rx := rest
    pe := { state := .payload, op := opcodeField cmd, imm := immediateField cmd, need := 0, buf := [p0, p1] }
    inputs := es }

/-- Three turns of PE: DISPATCH, a COLLECT, and the COLLECT that writes the register. -/
theorem run_regWrite {s : State} {cmd p0 p1 : Byte} {rest : List Byte} {es : List Event}
    (hin : s.inputs = .pe :: .pe :: .pe :: es) (hst : s.pe.state = .idle) (hrx : s.rx = cmd :: p0 :: p1 :: rest)
    (hcmd : opcodeField cmd = s.cfg.opc.regWrite) :
    Host.Core.run Sys2Proof.core 3 s = .next ((writeReg (immediateField cmd) (valueOperand [p0, p1])
      (regWriteCollected s cmd p0 p1 rest es)).setPe .idle) := by
  have htail : s.inputs.tail = .pe :: .pe :: es := by rw [hin]; rfl
  have htail₂ : s.inputs.tail.tail = .pe :: es := by rw [htail]; rfl
  rw [run_succ_of_step (M := Sys2Proof.core) 2 (step_regWrite_dispatch hin hst hrx hcmd),
    run_succ_of_step (M := Sys2Proof.core) 1 (step_regWrite_more htail rfl rfl hcmd Nat.one_lt_two),
    run_succ_of_step (M := Sys2Proof.core) 0 (step_regWrite_last htail₂ rfl rfl hcmd rfl)]
  simp only [regWriteCollected, State.takePayload, dropInput, State.awaitPayload, takeCommandByte, hin]
  rfl

/-- Settles O34: the three turns of PE end in one register write, on the state that has collected both bytes; what that
write leaves unchanged is the frame of `writeReg`. -/
theorem wholeRegWrite : Obligations.WholeRegWrite := by
  refine ⟨fun r => ⟨?_, fun _ => rfl⟩, fun s cmd p0 p1 rest es r hin hst hrx hcmd himm => ?_⟩
  · obtain ⟨hop, himm⟩ := fields_append 0x5#4 r
    rw [decodeByte_regWrite (by decide) hop, himm]
  · subst himm
    have hrun := run_regWrite hin hst hrx hcmd
    have haspect := writeReg_aspect_toNat (immediateField cmd) (valueOperand [p0, p1])
      (regWriteCollected s cmd p0 p1 rest es)
    have hduty := writeReg_duty_toNat (immediateField cmd) (valueOperand [p0, p1])
      (regWriteCollected s cmd p0 p1 rest es)
    obtain ⟨reg, hframe⟩ := writeReg_frame (immediateField cmd) (valueOperand [p0, p1])
      (regWriteCollected s cmd p0 p1 rest es)
    rw [hframe] at hrun
    rw [hframe, valueOperand_pair] at haspect hduty
    exact ⟨_, hrun, rfl, rfl, haspect, hduty, rfl⟩

end Sys2Proof.Machine
end

section
/-! The Stepper Sequencer (`42_stepper_sequencer.md` R171): the phase arithmetic, and what STEP writes. A tick's later
parts leave the stepper alone (`tick_st`), so these are a tick's facts too. -/

namespace Sys2Proof.Machine

theorem nextPhase_plusOne_val (p : Fin 8) : (nextPhase .plusOne p).val = (p.val + 1) % 8 := by
  rw [nextPhase, Fin.val_add, Fin.val_one]

/-- One step back modulo 8 is seven steps on. -/
theorem nextPhase_minusOne_val (p : Fin 8) : (nextPhase .minusOne p).val = (p.val + 7) % 8 := by
  rw [nextPhase, Fin.val_sub, Fin.val_one, Nat.add_comm]

@[simp] theorem stepMotor_st_phase (s : State) :
    (stepMotor s).st.phase = nextPhase s.cfg.dirDelta s.st.phase := rfl

/-- The pins show the NEW phase. -/
theorem stepMotor_st_motor (s : State) :
    (stepMotor s).st.motor = s.cfg.motorStates.getD (stepMotor s).st.phase.val 0 := rfl

/-- Settles O40: a tick leaves the stepper as STEP wrote it; the phase goes by the two directions. -/
theorem tickStepsTheMotor : Obligations.TickStepsTheMotor := by
  intro s
  rw [tick_st]
  refine ⟨?_, stepMotor_st_motor s, stepMotor_st_step s⟩
  rw [stepMotor_st_phase]
  cases s.cfg.dirDelta with
  | plusOne => exact nextPhase_plusOne_val s.st.phase
  | minusOne => exact nextPhase_minusOne_val s.st.phase

end Sys2Proof.Machine
end

section
/-! The Register Bank (`44_register_bank.md` R212, R213): the clamped write in REG_WRITE's last step, and the indices
that ignore writes. -/

namespace Sys2Proof.Machine

/-- Settles O25: the last COLLECT of REG_WRITE is a register write on the state that has taken both bytes; its frame
gives the bank, its value at registers 3 and 4 the clamps. -/
theorem regWriteCompletes : Obligations.RegWriteCompletes := by
  intro r s p0 p1 rest hst hbuf hneed hrx
  have hexec := exec_regWrite_last r hst hrx hneed
  have haspect := writeReg_aspect_toNat r (valueOperand (s.pe.buf ++ [p1])) (s.takePayload p1 rest)
  have hduty := writeReg_duty_toNat r (valueOperand (s.pe.buf ++ [p1])) (s.takePayload p1 rest)
  obtain ⟨reg, hframe⟩ := writeReg_frame r (valueOperand (s.pe.buf ++ [p1])) (s.takePayload p1 rest)
  have hvalue : (valueOperand (s.pe.buf ++ [p1])).toNat = 256 * p0.toNat + p1.toNat := by
    rw [hbuf]
    exact valueOperand_pair p0 p1
  rw [hframe] at hexec
  rw [hframe, hvalue] at haspect hduty
  refine ⟨reg, hexec.trans ?_, haspect, hduty⟩
  simp only [State.takePayload, State.setPe, hbuf, hneed, List.singleton_append, Nat.sub_self]

/-- Register 0 reads as a constant of the configuration (R211). -/
theorem readReg_zero (s : State) : readReg 0 s = (BitVec.ofNat 16 s.cfg.vp, s) := rfl

/-- Settles O26: a write to an index other than 3 and 4 leaves the whole state, so every read after it, as it was. -/
theorem readOnlyRegistersIgnoreWrites : Obligations.ReadOnlyRegistersIgnoreWrites := by
  intro i v s h3 h4
  have hsame (t : State) : writeReg i v t = t := writeReg_other v t h3 h4
  refine ⟨hsame s, fun j _ => by rw [hsame s], fun t hcfg => ?_⟩
  rw [hsame t, readReg_zero, readReg_zero, hcfg]

end Sys2Proof.Machine
end

section
/-! No step stops (`60_exceptions.md` R260): a meaning answers a next state for every instruction in every parser state,
and so does the turn of each agent. -/

namespace Sys2Proof.Machine

theorem execPushLine_answers_next (imm : Nibble) (s : State) : ∃ t, execPushLine imm s = .next t := by
  unfold execPushLine
  cases s.pe.state <;> exact ⟨_, rfl⟩

theorem execFlushBuffer_answers_next (imm : Nibble) (s : State) : ∃ t, execFlushBuffer imm s = .next t := by
  unfold execFlushBuffer
  cases s.pe.state <;> exact ⟨_, rfl⟩

theorem execRegWrite_answers_next (r : Nibble) (s : State) : ∃ t, execRegWrite r s = .next t := by
  unfold execRegWrite
  cases s.pe.state <;> exact ⟨_, rfl⟩

/-- The three commands with a payload or a wait go on by the parser state; every other meaning is one next state
outright, a reserved opcode's the state itself (R261). -/
theorem exec_answers_next (i : Instr) (s : State) : ∃ t, exec i s = .next t := by
  cases i with
  | pushLine imm => exact execPushLine_answers_next imm s
  | flushBuffer imm => exact execFlushBuffer_answers_next imm s
  | regWrite r => exact execRegWrite_answers_next r s
  | _ => exact ⟨_, rfl⟩

/-- PE's turn runs the instruction fetched, or nothing. -/
theorem peStep_answers_next (s : State) : ∃ t, peStep s = .next t := by
  unfold peStep
  cases fetch s with
  | none => exact ⟨s, rfl⟩
  | some fetched => exact exec_answers_next fetched.1 fetched.2

/-- Of the agents' turns only PE's runs a meaning; the others are functions of the state. -/
theorem runEvent_answers_next (e : Event) (s : State) : ∃ t, runEvent e s = .next t := by
  cases e with
  | pe => exact peStep_answers_next s
  | hostSend b => exact ⟨hostSend b s, rfl⟩
  | hostRead n => exact ⟨hostRead n s, rfl⟩
  | tick => exact ⟨tick s, rfl⟩
  | reset => exact ⟨powerUp s, rfl⟩

/-- Settles O16: an event is one agent's turn; with none listed it is PE's turn where one is enabled, else a tick. -/
theorem everyStepAnswersNext : Obligations.EveryStepAnswersNext := by
  intro s
  unfold step
  cases s.inputs with
  | cons e es => exact runEvent_answers_next e _
  | nil =>
    cases peEnabled s with
    | true => exact peStep_answers_next s
    | false => exact ⟨tick s, rfl⟩

end Sys2Proof.Machine
end

section
/-! The wire format's round trips (`30_encoding.md` R90 to R95): decoding and encoding are inverse to each other on
command bytes, on instructions and on whole commands. Both directions are the row table's: a row's nibble is found at
its row, and at its nibble's row stands that nibble. -/

namespace Sys2Proof

theorem opcodeField_encodeByte (o : Opc) (i : Instr) : opcodeField (encodeByte o i) = o.rows.getD i.row 0x0#4 :=
  (fields_append _ _).1

theorem immediateField_encodeByte (o : Opc) (i : Instr) : immediateField (encodeByte o i) = i.imm :=
  (fields_append _ _).2

theorem Opc.lt_rows_length {o : Opc} (h : o.assigned.Nodup) {k : Nat} (hk : k < 16) : k < o.rows.length := by
  rwa [Opc.rows_length h]

theorem Opc.row_lt_rows_length {o : Opc} (h : o.assigned.Nodup) (i : Instr) : i.row < o.rows.length :=
  Opc.lt_rows_length h (Instr.row_lt i)

/-- The nibble at an instruction's row is that row's. -/
theorem decodeByte_encodeByte {o : Opc} (h : o.assigned.Nodup) (i : Instr) : decodeByte o (encodeByte o i) = i := by
  have hrow := Opc.row_lt_rows_length h i
  rw [decodeByte, opcodeField_encodeByte, immediateField_encodeByte, List.getD_eq_getElem _ _ hrow, instrOf_rows h hrow,
    Instr.ofRow_row]

@[simp] theorem imm_decodeByte (o : Opc) (b : Byte) : (decodeByte o b).imm = immediateField b :=
  Instr.ofRow_imm _ _

theorem encodeByte_decodeByte {o : Opc} (h : o.assigned.Nodup) (b : Byte) : encodeByte o (decodeByte o b) = b := by
  have hmem : o.rows.idxOf (opcodeField b) < o.rows.length := List.idxOf_lt_length_of_mem (Opc.mem_rows o _)
  rw [encodeByte, row_decodeByte h, imm_decodeByte, List.getD_eq_getElem _ _ hmem, List.getElem_idxOf hmem,
    append_fields]

/-- Settles O1: an instruction is one byte, and its byte decodes to it. -/
theorem decodeEncodeAgree : Obligations.DecodeEncodeAgree := by
  intro c i rest
  rw [encode, List.singleton_append, decode, decodeByte_encodeByte c.opc_nodup]

/-- Settles O2: an instruction and its byte have the same row and the same immediate. -/
theorem encodeDecodeAgree : Obligations.EncodeDecodeAgree :=
  fun c b => encodeByte_decodeByte c.opc_nodup b

/-- Settles O3: the command byte is read back, so the payload's length is known and cuts the stream where the payload
ends. -/
theorem wholeCommandRoundTrip : Obligations.WholeCommandRoundTrip := by
  intro c cmd rest hwf
  have hlen : cmd.payload.length = cmd.instr.payloadLen c.vp := by simpa [Command.WellFormed] using hwf
  have hlong : ¬ (cmd.payload ++ rest).length < cmd.instr.payloadLen c.vp := by
    rw [List.length_append]
    omega
  simp only [encodeCommand, List.cons_append, decodeCommand, decode, decodeByte_encodeByte c.opc_nodup, if_neg hlong]
  rw [← hlen, List.take_left, List.drop_left]

/-- Settles O5: the spec's eleven examples, evaluated. -/
theorem specWordsDecode : Obligations.SpecWordsDecode :=
  ⟨rfl, rfl, rfl, rfl, rfl, rfl, rfl, rfl, rfl, rfl, rfl⟩

end Sys2Proof
end

section
/-! `pack` and `unpack` (`00_scope.md` R13): inverse to each other, eight LEDs to the byte. -/

namespace Sys2Proof.Machine

theorem bitsByte_byteBits (b : Byte) : bitsByte (byteBits b) = b := by
  revert b
  decide

theorem byteBits_bitsByte (b0 b1 b2 b3 b4 b5 b6 b7 : Bool) :
    byteBits (bitsByte [b0, b1, b2, b3, b4, b5, b6, b7]) = [b0, b1, b2, b3, b4, b5, b6, b7] := by
  revert b0 b1 b2 b3 b4 b5 b6 b7
  decide

/-- The eight LEDs of one byte packed, in front of any column. -/
theorem pack_byteBits_append (b : Byte) (col : Col) : pack (byteBits b ++ col) = b :: pack col :=
  congrArg (· :: pack col) (bitsByte_byteBits b)

theorem pack_unpack (bytes : List Byte) : pack (unpack bytes) = bytes := by
  induction bytes with
  | nil => rfl
  | cons b bytes ih => rw [unpack_cons, pack_byteBits_append, ih]

/-- A column of whole bytes is packed eight LEDs at a time. -/
theorem unpack_pack_of_length (n : Nat) (col : Col) (h : col.length = 8 * n) :
    unpack (pack col) = col ∧ (pack col).length = n := by
  induction n generalizing col with
  | zero =>
    obtain rfl := List.eq_nil_of_length_eq_zero h
    exact ⟨rfl, rfl⟩
  | succ n ih =>
    match col, h with
    | b0 :: b1 :: b2 :: b3 :: b4 :: b5 :: b6 :: b7 :: col, h =>
      obtain ⟨hcol, hlen⟩ := ih col (by simp only [List.length_cons] at h; omega)
      rw [pack, unpack_cons, byteBits_bitsByte, hcol, List.length_cons, hlen]
      exact ⟨rfl, rfl⟩

/-- VP is a multiple of 8 (R6), so COLBYTES bytes are a column. -/
theorem eight_mul_colBytes (c : Config) : 8 * colBytes c.vp = c.vp :=
  Nat.mul_div_cancel' (Nat.dvd_of_mod_eq_zero c.vp_dvd)

/-- Settles O7: one byte, or eight LEDs, at a time. -/
theorem packUnpackInverse : Obligations.PackUnpackInverse :=
  ⟨pack_unpack, fun c col h => unpack_pack_of_length (c.vp / 8) col (h.trans (eight_mul_colBytes c).symm)⟩

end Sys2Proof.Machine
end

section
/-! Whose turn it is, and what a step is on each agent's turn (`00_scope.md` R8, R9; `40_protocol_engine.md` R120, R133;
the turn of an empty list of events is log 6). -/

namespace Sys2Proof.Machine

/-- PE moves next: its event, or no event where a PE step is enabled (log 6). -/
def PeTurn (s : State) : Prop := s.inputs.head? = some .pe ∨ (s.inputs = [] ∧ peEnabled s = true)

/-- TICK moves next: its event, or no event where no PE step is enabled (log 6). -/
def TickTurn (s : State) : Prop := s.inputs.head? = some .tick ∨ (s.inputs = [] ∧ peEnabled s = false)

theorem step_of_head? {s : State} {e : Event} (h : s.inputs.head? = some e) : step s = runEvent e (dropInput s) := by
  obtain ⟨es, hin⟩ := List.head?_eq_some_iff.mp h
  simp only [step, hin]

theorem head?_of_inputs {s : State} {e : Event} {es : List Event} (h : s.inputs = e :: es) :
    s.inputs.head? = some e := by
  rw [h, List.head?_cons]

theorem dropInput_of_inputs {s : State} {e : Event} {es : List Event} (h : s.inputs = e :: es) :
    dropInput s = { s with inputs := es } := by
  rw [dropInput, h, List.tail_cons]

/-- With no event listed there is none to use up. -/
theorem dropInput_of_nil {s : State} (h : s.inputs = []) : dropInput s = s := by
  cases s
  cases h
  rfl

theorem step_of_peTurn {s : State} (h : PeTurn s) : step s = peStep (dropInput s) := by
  rcases h with h | ⟨hin, hen⟩
  · exact step_of_head? h
  · rw [dropInput_of_nil hin, step, hin]
    exact if_pos hen

theorem step_of_tickTurn {s : State} (h : TickTurn s) : step s = .next (tick (dropInput s)) := by
  rcases h with h | ⟨hin, hen⟩
  · exact step_of_head? h
  · rw [dropInput_of_nil hin, step, hin]
    exact if_neg (by rw [hen]; exact Bool.false_ne_true)

/-- Every step is one agent's. -/
theorem step_cases {s t : State} (h : step s = .next t) :
    (∃ b, s.inputs.head? = some (.hostSend b) ∧ t = hostSend b (dropInput s)) ∨
    (∃ n, s.inputs.head? = some (.hostRead n) ∧ t = hostRead n (dropInput s)) ∨
    (PeTurn s ∧ peStep (dropInput s) = .next t) ∨
    (TickTurn s ∧ t = tick (dropInput s)) ∨
    (s.inputs.head? = some .reset ∧ t = powerUp (dropInput s)) := by
  cases hin : s.inputs.head? with
  | none =>
    have hnil := List.head?_eq_none_iff.mp hin
    cases hen : peEnabled s with
    | true =>
      have hturn : PeTurn s := .inr ⟨hnil, hen⟩
      exact .inr (.inr (.inl ⟨hturn, (step_of_peTurn hturn).symm.trans h⟩))
    | false =>
      have hturn : TickTurn s := .inr ⟨hnil, hen⟩
      rw [step_of_tickTurn hturn, Host.Outcome.next.injEq] at h
      exact .inr (.inr (.inr (.inl ⟨hturn, h.symm⟩)))
  | some e =>
    rw [step_of_head? hin] at h
    cases e with
    | pe => exact .inr (.inr (.inl ⟨.inl hin, h⟩))
    | hostSend b => exact .inl ⟨b, rfl, (Host.Outcome.next.inj h).symm⟩
    | hostRead n => exact .inr (.inl ⟨n, rfl, (Host.Outcome.next.inj h).symm⟩)
    | tick => exact .inr (.inr (.inr (.inl ⟨.inl hin, (Host.Outcome.next.inj h).symm⟩)))
    | reset => exact .inr (.inr (.inr (.inr ⟨rfl, (Host.Outcome.next.inj h).symm⟩)))

/-! ### PE's turn by the parser state -/

/-- Outside IDLE an enabled PE step goes on with the command in progress. -/
theorem peStep_busy {s : State} (hen : peEnabled s = true) (hst : s.pe.state ≠ .idle) :
    peStep s = exec (inProgress s) s := by
  cases h : s.pe.state with
  | idle => exact absurd h hst
  | payload => simp only [peStep, fetch, hen, h, if_true]
  | waitSpace => simp only [peStep, fetch, hen, h, if_true]
  | waitEmpty => simp only [peStep, fetch, hen, h, if_true]

theorem peStep_disabled {s : State} (hen : peEnabled s = false) : peStep s = .next s := by
  simp only [peStep, fetch, hen, Bool.false_eq_true, if_false]

theorem peEnabled_idle {s : State} (h : s.pe.state = .idle) : peEnabled s = true ↔ s.rx ≠ [] := by
  simp [peEnabled, h]

theorem peEnabled_payload {s : State} (h : s.pe.state = .payload) : peEnabled s = true ↔ s.rx ≠ [] := by
  simp [peEnabled, h]

theorem peEnabled_waitSpace {s : State} (h : s.pe.state = .waitSpace) :
    peEnabled s = true ↔ s.db.count < s.cfg.cap := by
  simp [peEnabled, h]

theorem peEnabled_waitEmpty {s : State} (h : s.pe.state = .waitEmpty) : peEnabled s = true ↔ s.db.count = 0 := by
  simp [peEnabled, h, dbEmpty]

/-- A byte is the two fields it was taken apart into, so the stored fields name the command as its byte did. -/
theorem decodeByte_append (o : Opc) (op e : Nibble) : decodeByte o (op ++ e) = instrOf o op e := by
  obtain ⟨hop, himm⟩ := fields_append op e
  rw [decodeByte, hop, himm]

/-- DISPATCH runs the command that the stored fields name. -/
theorem inProgress_takeCommandByte (s : State) (b : Byte) (rest : List Byte) :
    inProgress (takeCommandByte s b rest) = decodeByte s.cfg.opc b := rfl

/-- A PE step is nothing, or `exec` of the command in progress: in IDLE on the state that has just taken the command
byte, in the other parser states on the state as it is. -/
theorem peStep_cases {s t : State} (h : peStep s = .next t) :
    (peEnabled s = false ∧ t = s) ∨
    (∃ b rest, s.pe.state = .idle ∧ s.rx = b :: rest ∧
      exec (inProgress (takeCommandByte s b rest)) (takeCommandByte s b rest) = .next t) ∨
    (peEnabled s = true ∧ s.pe.state ≠ .idle ∧ exec (inProgress s) s = .next t) := by
  cases hen : peEnabled s with
  | false =>
    rw [peStep_disabled hen, Host.Outcome.next.injEq] at h
    exact .inl ⟨rfl, h.symm⟩
  | true =>
    by_cases hst : s.pe.state = .idle
    · obtain ⟨b, rest, hrx⟩ := List.exists_cons_of_ne_nil ((peEnabled_idle hst).mp hen)
      rw [peStep_idle hst hrx, ← inProgress_takeCommandByte s b rest] at h
      exact .inr (.inl ⟨b, rest, hst, hrx, h⟩)
    · rw [peStep_busy hen hst] at h
      exact .inr (.inr ⟨rfl, hst, h⟩)

/-! ### The statements about turns -/

/-- Settles O8: a byte is there, so PE's turn is an enabled DISPATCH, with or without an event. -/
theorem stepRunsDecodedInstruction : Obligations.StepRunsDecodedInstruction := by
  intro s b rest i hst hrx hdec hin
  have hen : peEnabled s = true := (peEnabled_idle hst).mpr (by rw [hrx]; exact List.cons_ne_nil b rest)
  have hturn : PeTurn s := hin.elim (fun h => .inr ⟨h, hen⟩) .inl
  have hi : decodeByte s.cfg.opc b = i := by
    rw [hrx, decode, Except.ok.injEq, Prod.mk.injEq] at hdec
    exact hdec.1
  rw [step_of_peTurn hturn, peStep_idle (s := dropInput s) hst hrx, dropInput_cfg, hi]
  rfl

/-- Settles O9: the three conditions are those that enable a PE step outside IDLE. -/
theorem stepContinuesCommandInProgress : Obligations.StepContinuesCommandInProgress := by
  intro s hst hpay hspace hempty hin
  have hen : peEnabled s = true := by
    cases h : s.pe.state with
    | idle => exact absurd h hst
    | payload => exact (peEnabled_payload h).mpr (hpay h)
    | waitSpace => exact (peEnabled_waitSpace h).mpr (hspace h)
    | waitEmpty => exact (peEnabled_waitEmpty h).mpr (hempty h)
  have hturn : PeTurn s := hin.elim (fun h => .inr ⟨h, hen⟩) .inl
  rw [step_of_peTurn hturn, peStep_busy (s := dropInput s) hen hst, decodeByte_append]
  rfl

/-- Settles O10: each of the four conditions disables PE's step. -/
theorem engineWaitsUntilEnabled : Obligations.EngineWaitsUntilEnabled := by
  intro s es hin hwait
  have hen : ¬ peEnabled s = true := by
    rcases hwait with ⟨hst, h⟩ | ⟨hst, h⟩ | ⟨hst, h⟩ | ⟨hst, h⟩
    · rw [peEnabled_idle hst]; exact not_not_intro h
    · rw [peEnabled_payload hst]; exact not_not_intro h
    · rw [peEnabled_waitSpace hst]; exact Nat.not_lt.mpr h
    · rw [peEnabled_waitEmpty hst]; exact h
  rw [step_pe hin, peStep_disabled (s := dropInput s) (Bool.eq_false_iff.mpr hen), dropInput_of_inputs hin]

/-- Settles O11: the event is the tick alone, whatever the rest of the state is. -/
theorem tickIsNeverBlocked : Obligations.TickIsNeverBlocked := by
  intro s es hin
  rw [step_of_tickTurn (.inl (head?_of_inputs hin)), dropInput_of_inputs hin]

/-- Settles O12: each HOST event is one operation on one stream. -/
theorem hostOnlyMovesStreamBytes : Obligations.HostOnlyMovesStreamBytes := by
  refine ⟨fun s es b hin => ?_, fun s es n hin => ?_⟩
  · rw [step_of_head? (head?_of_inputs hin), dropInput_of_inputs hin]
    rfl
  · rw [step_of_head? (head?_of_inputs hin), dropInput_of_inputs hin]
    rfl

/-- Settles O13: the reset input gives the reset state of the configuration, whose fields are the table's values. -/
theorem resetRestoresEveryElement : Obligations.ResetRestoresEveryElement := by
  intro s es hin
  refine ⟨powerUp (dropInput s), step_of_head? (head?_of_inputs hin), rfl, ?_, ?_⟩
  · rw [dropInput_of_inputs hin]
    rfl
  · exact ⟨rfl, rfl, rfl, rfl, rfl, rfl, rfl, rfl, rfl, rfl, rfl, rfl, rfl, rfl, rfl, rfl, rfl, rfl, rfl, rfl, rfl, rfl,
      rfl⟩

/-- Settles O14: evaluated under REF. -/
theorem resetRegistersOfRef : Obligations.ResetRegistersOfRef :=
  ⟨rfl, rfl, rfl, rfl, rfl, rfl⟩

/-- Settles O15: the six checks of `RawConfig.ok` together are the parameter table's constraints, in another order. -/
theorem bootRefusesIllegalConfigurations : Obligations.BootRefusesIllegalConfigurations := by
  intro c legal
  have hlegal : c.ok = true ↔ legal := by
    simp only [RawConfig.ok, RawConfig.geometryOk, RawConfig.rotationOk, RawConfig.bufferOk, RawConfig.automatonOk,
      RawConfig.opcOk, RawConfig.registersOk, Bool.and_eq_true, decide_eq_true_eq, legal]
    tauto
  refine ⟨fun hill => dif_neg (hlegal.not.mpr hill), fun h => ?_⟩
  exact ⟨{ toRawConfig := c, ok := hlegal.mpr h }, rfl, dif_pos (hlegal.mpr h)⟩

end Sys2Proof.Machine
end

section
/-! Which command a byte is, by its opcode nibble (`30_encoding.md` R94, R95), and DISPATCH as a step of the whole
machine. -/

namespace Sys2Proof

/-- The byte with row `k`'s nibble is decoded to row `k`'s instruction. -/
theorem decodeByte_of_row {o : Opc} (h : o.assigned.Nodup) {b : Byte} {k : Nat} (hk : k < o.rows.length)
    (hb : opcodeField b = o.rows[k]) : decodeByte o b = Instr.ofRow k (immediateField b) := by
  rw [decodeByte, hb, instrOf_rows h hk]

/-- A nibble that is assigned to no command stands behind the seven that are. -/
theorem seven_le_row_of_notMem {o : Opc} (h : o.assigned.Nodup) {b : Byte} (hb : opcodeField b ∉ o.assigned) :
    7 ≤ (decodeByte o b).row := by
  rw [row_decodeByte h, Opc.rows, List.idxOf_append_of_notMem hb]
  exact Nat.le_add_right 7 _

end Sys2Proof

namespace Sys2Proof.Machine

/-- DISPATCH on PE's event: the whole step, `exec` aside. -/
theorem step_dispatch {s : State} {b : Byte} {rest : List Byte} {es : List Event} (hst : s.pe.state = .idle)
    (hrx : s.rx = b :: rest) (hin : s.inputs = .pe :: es) :
    step s = exec (decodeByte s.cfg.opc b) { s with
      rx := rest, inputs := es, pe := { s.pe with op := opcodeField b, imm := immediateField b, buf := [] } } := by
  rw [step_pe hin, peStep_idle (s := dropInput s) hst hrx, dropInput_of_inputs hin]
  rfl

end Sys2Proof.Machine
end

section
/-! What each command does, by the parser state it is run in (`40_protocol_engine.md` R123 to R131): an equation per
case. -/

namespace Sys2Proof.Machine

/-! ### Commands of one step -/

/-- NO_OP and the nine reserved rows. -/
theorem exec_noEffect {i : Instr} (h : i.row = 0 ∨ 7 ≤ i.row) (s : State) : exec i s = .next s := by
  cases i with
  | pushLine | flushBuffer | clearBuffer | regRead | regWrite | ping => simp [Instr.row] at h
  | _ => rfl

theorem exec_ping (e : Nibble) (s : State) : exec (.ping e) s = .next (s.emit [pingByte e]) := rfl

theorem exec_clearBuffer (imm : Nibble) (s : State) : exec (.clearBuffer imm) s = .next s.dbClear := rfl

theorem exec_regRead (r : Nibble) (s : State) :
    exec (.regRead r) s = .next ((readReg r s).2.emit (halfBytes (readReg r s).1)) := rfl

/-- What a register read can change. -/
theorem readReg_frame (r : Nibble) (s : State) : (readReg r s).2 = { s with draws := (readReg r s).2.draws } := by
  rcases Nat.lt_or_ge 5 r.toNat with h | h
  · rw [readReg_reserved s h]
    rfl
  · rw [readReg_defined s h]

/-! ### REG_WRITE -/

theorem exec_regWrite_waiting {s : State} (r : Nibble) (h : s.pe.state = .waitSpace ∨ s.pe.state = .waitEmpty) :
    exec (.regWrite r) s = .next s := by
  rcases h with h | h <;> simp only [exec, execRegWrite, h]

/-! ### PUSH_LINE -/

theorem exec_pushLine_idle {s : State} (imm : Nibble) (hst : s.pe.state = .idle) :
    exec (.pushLine imm) s = .next (s.awaitPayload (colBytes s.cfg.vp)) := by
  simp only [exec, execPushLine, hst]

theorem exec_pushLine_payload {s : State} (imm : Nibble) (hst : s.pe.state = .payload) :
    exec (.pushLine imm) s = .next (s.collect (fun t => t.setPe .waitSpace)) := by
  simp only [exec, execPushLine, hst]

theorem exec_pushLine_waitSpace {s : State} (imm : Nibble) (hst : s.pe.state = .waitSpace) :
    exec (.pushLine imm) s = .next (pushComplete s) := by
  simp only [exec, execPushLine, hst]

theorem exec_pushLine_waitEmpty {s : State} (imm : Nibble) (hst : s.pe.state = .waitEmpty) :
    exec (.pushLine imm) s = .next s := by
  simp only [exec, execPushLine, hst]

/-- PUSH-COMPLETE into a free slot: the column joins at the tail, the generator is suspended, the free slots left are
answered. -/
theorem pushComplete_room {s : State} (h : s.db.count < s.cfg.cap) :
    pushComplete s = { s with
      db := { mem := Memory.write s.cfg.vp s.db.mem (s.db.tail s.cfg.cap) (unpack s.pe.buf)
              head := s.db.head
              count := s.db.count + 1 }
      au := { s.au with active := false }
      idleCnt := 0
      tx := s.tx ++ [BitVec.ofNat 8 (s.cfg.cap - (s.db.count + 1))]
      pe := { s.pe with state := .idle } } := by
  simp only [pushComplete, h, if_true, State.dbPush, DisplayBuffer.push_room _ h, columnOperand]
  rfl

theorem pushComplete_full {s : State} (h : ¬ s.db.count < s.cfg.cap) : pushComplete s = s := by
  simp only [pushComplete, h, if_false]

/-! ### FLUSH_BUFFER -/

theorem exec_flushBuffer_idle {s : State} (imm : Nibble) (hst : s.pe.state = .idle) :
    exec (.flushBuffer imm) s = .next (s.setPe .waitEmpty) := by
  simp only [exec, execFlushBuffer, hst]

theorem exec_flushBuffer_waitEmpty {s : State} (imm : Nibble) (hst : s.pe.state = .waitEmpty) :
    exec (.flushBuffer imm) s = .next (flushComplete s) := by
  simp only [exec, execFlushBuffer, hst]

theorem exec_flushBuffer_unreached {s : State} (imm : Nibble)
    (h : s.pe.state = .payload ∨ s.pe.state = .waitSpace) : exec (.flushBuffer imm) s = .next s := by
  rcases h with h | h <;> simp only [exec, execFlushBuffer, h]

theorem flushComplete_empty {s : State} (h : s.db.count = 0) :
    flushComplete s = (s.drawByte.2.emit [s.drawByte.1]).setPe .idle := by
  simp [flushComplete, dbEmpty, h]

theorem flushComplete_waits {s : State} (h : s.db.count ≠ 0) : flushComplete s = s := by
  simp [flushComplete, dbEmpty, h]

/-! ### The statements, command by command -/

/-- Settles O17: row 0 is NO_OP's, whatever the immediate, and a command of row 0 answers the state it is given. -/
theorem noOpHasNoEffect : Obligations.NoOpHasNoEffect := by
  refine ⟨fun imm => ⟨?_, fun _ => rfl, fun _ => rfl⟩, fun s b rest es hst hrx hin hb => ?_⟩
  · rw [decodeByte_append]
    rfl
  · have hrow : (decodeByte s.cfg.opc b).row = 0 :=
      (row_decodeByte_eq_iff s.cfg.opc_nodup b (Opc.lt_rows_length s.cfg.opc_nodup (by decide))).mpr hb
    rw [step_dispatch hst hrx hin, exec_noEffect (.inl hrow)]
    rfl

/-- Settles O18: an unassigned nibble's row is 7 or more, where nothing has a payload or an effect. -/
theorem unassignedOpcodeIsIgnored : Obligations.UnassignedOpcodeIsIgnored := by
  refine ⟨fun c b hb => ?_, fun s b rest es hst hrx hin hb => ?_, by decide⟩
  · have hrow := seven_le_row_of_notMem c.opc_nodup hb
    refine ⟨?_, exec_noEffect (.inr hrow)⟩
    rw [Instr.payloadLen_eq_of_row, if_neg (by omega), if_neg (by omega)]
  · rw [step_dispatch hst hrx hin, exec_noEffect (.inr (seven_le_row_of_notMem s.cfg.opc_nodup hb))]
    rfl

/-- Settles O19: all nine meanings are `noEffect`. -/
theorem reservedRowsHaveNoEffect : Obligations.ReservedRowsHaveNoEffect :=
  fun _ _ => ⟨rfl, rfl, rfl, rfl, rfl, rfl, rfl, rfl, rfl⟩

/-- Settles O20: row 6 is PING's; its response is the version nibble above the operand. -/
theorem pingEchoesItsNibble : Obligations.PingEchoesItsNibble := by
  refine ⟨fun e => ⟨?_, fun _ => rfl, exec_ping e⟩, rfl, rfl, rfl⟩
  rw [decodeByte_append]
  rfl

/-- Settles O21: `clear` moves the head to the tail and zeroes the count; from an empty ring the tail is the head. -/
theorem clearBufferEmptiesOnlyTheBuffer : Obligations.ClearBufferEmptiesOnlyTheBuffer := by
  intro imm s
  refine ⟨?_, fun _ => rfl, s.dbClear, exec_clearBuffer imm s, rfl, rfl, rfl, fun _ => rfl, fun hhead => ⟨?_, ?_⟩⟩
  · rw [decodeByte_append]
    rfl
  · exact Nat.mod_lt _ s.cfg.cap_pos
  · intro hcount
    have htail : s.db.tail s.cfg.cap = s.db.head := by
      rw [DisplayBuffer.tail, hcount, Nat.add_zero, Nat.mod_eq_of_lt hhead]
    have hdb : s.db.clear s.cfg.cap = s.db := by rw [DisplayBuffer.clear, htail, ← hcount]
    rw [State.dbClear, hdb]

/-- Settles O22: the two bytes are those of the value read; register 5's two bytes are the two it was put together
from. -/
theorem regReadAnswersTheRegister : Obligations.RegReadAnswersTheRegister := by
  intro r s
  refine ⟨?_, fun _ => rfl, (readReg r s).1, (readReg r s).2.draws, ?_, ?_⟩
  · rw [decodeByte_append]
    rfl
  · rw [exec_regRead, readReg_frame]
    rfl
  · refine ⟨?_, ?_, ?_, ?_, ?_, ?_, fun h => by rw [readReg_defined s h]⟩
    · rintro rfl; rfl
    · rintro rfl; rfl
    · rintro rfl; rfl
    · rintro rfl; rfl
    · rintro rfl; rfl
    · rintro rfl
      exact ⟨highByte_append _ _, lowByte_append _ _⟩

/-- Settles O23: the DISPATCH case of REG_WRITE, the same for every index. -/
theorem regWriteAsksForTwoBytes : Obligations.RegWriteAsksForTwoBytes :=
  fun r _ hst => exec_regWrite_idle r hst

/-- Settles O24: with more than one byte needed, COLLECT is the same for both commands. -/
theorem collectStoresPayloadByte : Obligations.CollectStoresPayloadByte := by
  refine fun s p rest hst hrx hneed => ⟨fun r => exec_regWrite_more r hst hrx hneed, fun imm => ?_⟩
  rw [exec_pushLine_payload imm hst, collect_more _ hrx hneed]
  rfl

/-- Settles O27: the DISPATCH case of PUSH_LINE. -/
theorem pushLineAsksForAColumn : Obligations.PushLineAsksForAColumn :=
  fun imm _ hst => exec_pushLine_idle imm hst

/-- Settles O28: the COLLECT that leaves no byte needed. -/
theorem pushLineArmsTheWait : Obligations.PushLineArmsTheWait := by
  intro imm s p rest hst hrx hneed
  rw [exec_pushLine_payload imm hst, collect_last _ hrx hneed]
  simp only [State.setPe, State.takePayload, hneed, Nat.sub_self]

/-- Settles O30: PUSH-COMPLETE is not enabled. -/
theorem pushLineWaitsForSpace : Obligations.PushLineWaitsForSpace := by
  intro imm s hst hfull
  rw [exec_pushLine_waitSpace imm hst, pushComplete_full (by omega)]

/-- Settles O31: the DISPATCH case of FLUSH_BUFFER. -/
theorem flushStartsToWait : Obligations.FlushStartsToWait :=
  fun imm _ hst => exec_flushBuffer_idle imm hst

/-- Settles O32: the byte is the one drawn. -/
theorem flushCompletesWhenEmpty : Obligations.FlushCompletesWhenEmpty := by
  intro imm s hst hempty
  refine ⟨s.drawByte.1, ?_⟩
  rw [exec_flushBuffer_waitEmpty imm hst, flushComplete_empty hempty]
  rfl

/-- Settles O33: FLUSH-COMPLETE is not enabled. -/
theorem flushWaitsWhileColumnsRemain : Obligations.FlushWaitsWhileColumnsRemain := by
  intro imm s hst hne
  rw [exec_flushBuffer_waitEmpty imm hst, flushComplete_waits hne]

/-- Settles O29: the column is written at the tail, which no occupied slot is; the answer is below CAP, which fits a
byte. -/
theorem pushLineCompletes : Obligations.PushLineCompletes := by
  intro imm s hbuf hst hroom
  have hcap := s.cfg.cap_le
  have hbyte : (BitVec.ofNat 8 (s.cfg.cap - (s.db.count + 1))).toNat = s.cfg.cap - (s.db.count + 1) := by
    rw [BitVec.toNat_ofNat]
    exact Nat.mod_eq_of_lt (by omega)
  refine ⟨_, _, ?_, hbyte, by omega, Memory.read_write_same _ hbuf.mem.1,
    fun slot hslot => Memory.read_write_other _ _ hslot, DisplayBuffer.q_write_tail _ hroom hbuf.mem.1⟩
  rw [exec_pushLine_waitSpace imm hst, pushComplete_room hroom]
  rfl

end Sys2Proof.Machine
end

section
/-! A whole PUSH_LINE (`40_protocol_engine.md` R121, R122, R124) as turns of PE: DISPATCH, the payload byte by byte,
PUSH-COMPLETE. -/

namespace Sys2Proof

theorem instrOf_pushLine {o : Opc} (h : o.assigned.Nodup) (e : Nibble) : instrOf o o.pushLine e = .pushLine e :=
  instrOf_rows (k := 1) h (Opc.lt_rows_length h (by decide)) e

end Sys2Proof

namespace Sys2Proof.Machine

section
variable {s : State} {es : List Event}

theorem step_pushLine_dispatch {b : Byte} {rest : List Byte} (hin : s.inputs = .pe :: es) (hst : s.pe.state = .idle)
    (hrx : s.rx = b :: rest) (hb : opcodeField b = s.cfg.opc.pushLine) :
    step s = .next ((takeCommandByte (dropInput s) b rest).awaitPayload (colBytes s.cfg.vp)) := by
  rw [step_pe hin, peStep_idle (s := dropInput s) hst hrx, dropInput_cfg, decodeByte, hb,
    instrOf_pushLine s.cfg.opc_nodup]
  exact exec_pushLine_idle _ hst

/-- A PUSH_LINE in progress has PE's turn. -/
theorem step_pushLine_inProgress (hin : s.inputs = .pe :: es) (hen : peEnabled s = true) (hst : s.pe.state ≠ .idle)
    (hop : s.pe.op = s.cfg.opc.pushLine) : step s = exec (.pushLine s.pe.imm) (dropInput s) := by
  rw [step_pe hin, peStep_busy (s := dropInput s) hen hst, inProgress, dropInput_cfg, dropInput_pe, hop,
    instrOf_pushLine s.cfg.opc_nodup]

theorem step_pushLine_collect {p : Byte} {rest : List Byte} (hin : s.inputs = .pe :: es) (hst : s.pe.state = .payload)
    (hrx : s.rx = p :: rest) (hop : s.pe.op = s.cfg.opc.pushLine) :
    step s = .next ((dropInput s).collect (fun t => t.setPe .waitSpace)) := by
  have hen : peEnabled s = true := (peEnabled_payload hst).mpr (by rw [hrx]; exact List.cons_ne_nil p rest)
  rw [step_pushLine_inProgress hin hen (by rw [hst]; decide) hop]
  exact exec_pushLine_payload _ hst

theorem step_pushLine_complete (hin : s.inputs = .pe :: es) (hst : s.pe.state = .waitSpace)
    (hroom : s.db.count < s.cfg.cap) (hop : s.pe.op = s.cfg.opc.pushLine) :
    step s = .next (pushComplete (dropInput s)) := by
  rw [step_pushLine_inProgress hin ((peEnabled_waitSpace hst).mpr hroom) (by rw [hst]; decide) hop]
  exact exec_pushLine_waitSpace _ hst

end

/-- `s` after the payload bytes have left `rx`, one event each, and PUSH_LINE waits for space. -/
def columnCollected (s : State) (payload rest : List Byte) (es : List Event) : State :=
  { s with
    rx := rest
    pe := { s.pe with state := .waitSpace, need := 0, buf := s.pe.buf ++ payload }
    inputs := es }

/-- A COLLECT of a payload byte that is not the last one. -/
theorem step_pushLine_more {s : State} {p : Byte} {rest : List Byte} {es : List Event} (hin : s.inputs = .pe :: es)
    (hst : s.pe.state = .payload) (hrx : s.rx = p :: rest) (hop : s.pe.op = s.cfg.opc.pushLine)
    (hneed : 1 < s.pe.need) : step s = .next ((dropInput s).takePayload p rest) := by
  rw [step_pushLine_collect hin hst hrx hop, collect_more (s := dropInput s) _ hrx hneed]

/-- The COLLECT of the last payload byte. -/
theorem step_pushLine_last {s : State} {p : Byte} {rest : List Byte} {es : List Event} (hin : s.inputs = .pe :: es)
    (hst : s.pe.state = .payload) (hrx : s.rx = p :: rest) (hop : s.pe.op = s.cfg.opc.pushLine)
    (hneed : s.pe.need = 1) : step s = .next (columnCollected s [p] rest es) := by
  rw [step_pushLine_collect hin hst hrx hop, collect_last (s := dropInput s) _ hrx hneed, dropInput_of_inputs hin]
  simp only [columnCollected, State.setPe, State.takePayload, hneed, Nat.sub_self]

/-- One COLLECT for each payload byte, the last one arming the wait; then the run goes on. The payload is `p :: ps`, as
a column has at least one byte; the induction is on the bytes behind the first. -/
theorem run_collect_column {s : State} {p : Byte} {ps rest : List Byte} {es : List Event} (k : Nat)
    (hin : s.inputs = List.replicate (p :: ps).length .pe ++ es) (hst : s.pe.state = .payload)
    (hrx : s.rx = p :: (ps ++ rest)) (hneed : s.pe.need = (p :: ps).length) (hop : s.pe.op = s.cfg.opc.pushLine) :
    Host.Core.run Sys2Proof.core (k + (p :: ps).length) s =
      Host.Core.run Sys2Proof.core k (columnCollected s (p :: ps) rest es) := by
  induction ps generalizing s p with
  | nil => exact run_succ_of_step (M := Sys2Proof.core) k (step_pushLine_last hin hst hrx hop hneed)
  | cons q ps ih =>
    have hin' : s.inputs = .pe :: (List.replicate (q :: ps).length .pe ++ es) := hin
    have hmore := step_pushLine_more hin' hst hrx hop (by rw [hneed]; simp)
    have hrest := ih (s := (dropInput s).takePayload p (q :: (ps ++ rest)))
      (by rw [takePayload_inputs, dropInput_inputs, hin', List.tail_cons]) hst rfl
      (by rw [takePayload_pe, dropInput_pe, hneed]; rfl) hop
    have hall : columnCollected ((dropInput s).takePayload p (q :: (ps ++ rest))) (q :: ps) rest es =
        columnCollected s (p :: q :: ps) rest es := by
      simp only [columnCollected, State.takePayload, dropInput, List.append_assoc, List.singleton_append]
    exact (run_succ_of_step (M := Sys2Proof.core) _ hmore).trans (hall ▸ hrest)

/-- `s` with the whole command taken from `rx`, before PUSH-COMPLETE. -/
def pushLineReady (s : State) (cmd : Byte) (payload rest : List Byte) (es : List Event) : State :=
  { s with
    rx := rest
    pe := { state := .waitSpace, op := opcodeField cmd, imm := immediateField cmd, need := 0, buf := payload }
    inputs := es }

/-- DISPATCH, the payload, and PUSH-COMPLETE. -/
theorem run_pushLine {s : State} {cmd : Byte} {payload rest : List Byte} {es : List Event}
    (hin : s.inputs = List.replicate (s.cfg.vp / 8 + 2) .pe ++ es) (hst : s.pe.state = .idle)
    (hrx : s.rx = cmd :: (payload ++ rest)) (hlen : payload.length = s.cfg.vp / 8)
    (hcmd : opcodeField cmd = s.cfg.opc.pushLine) (hroom : s.db.count < s.cfg.cap) :
    Host.Core.run Sys2Proof.core (s.cfg.vp / 8 + 2) s = .next (pushComplete (pushLineReady s cmd payload rest es)) := by
  have hvp := s.cfg.vp_ge
  obtain ⟨p, ps, rfl⟩ : ∃ p ps, payload = p :: ps := List.exists_cons_of_length_pos (by omega)
  have hin₁ : s.inputs = .pe :: (List.replicate (p :: ps).length .pe ++ (.pe :: es)) := by
    rw [hin, ← hlen, List.replicate_succ, List.replicate_succ', List.cons_append, List.append_assoc,
      List.singleton_append]
  have hdispatch := step_pushLine_dispatch hin₁ hst hrx hcmd
  have hcollect := run_collect_column 1 (es := .pe :: es)
    (s := (takeCommandByte (dropInput s) cmd (p :: (ps ++ rest))).awaitPayload (colBytes s.cfg.vp))
    (by rw [awaitPayload_inputs, takeCommandByte_inputs, dropInput_inputs, hin₁, List.tail_cons]) rfl rfl hlen.symm hcmd
  have hcomplete := step_pushLine_complete (es := es)
    (s := { pushLineReady s cmd (p :: ps) rest es with inputs := .pe :: es }) rfl rfl hroom hcmd
  have hsteps : s.cfg.vp / 8 + 2 = 1 + (p :: ps).length + 1 := by omega
  rw [hsteps]
  exact (run_succ_of_step (M := Sys2Proof.core) _ hdispatch).trans
    (hcollect.trans (run_succ_of_step (M := Sys2Proof.core) 0 hcomplete))

/-- Settles O35: the run ends in PUSH-COMPLETE of the payload's column. -/
theorem wholePushLine : Obligations.WholePushLine := by
  intro s cmd payload rest es hbuf hin hst hrx hlen hcmd hroom
  have hrun := run_pushLine hin hst hrx hlen hcmd hroom
  rw [pushComplete_room (s := pushLineReady s cmd payload rest es) hroom] at hrun
  exact ⟨_, hrun, rfl, rfl, DisplayBuffer.q_write_tail _ hroom hbuf.mem.1, rfl, rfl, rfl⟩

end Sys2Proof.Machine
end

section
/-! What one PE step of a command can do, said once: `CommandStep` has a case for each effect, and `exec_commandStep` is
the inversion lemma of `exec`. The frames and the invariants of the commands are case analyses of it. -/

namespace Sys2Proof.Machine

/-- The effects of a command's PE step (`40_protocol_engine.md` R121 to R131), with what enables each. `unchanged`
stands for a command without effect, one that waits, and one run in a parser state that it never reaches (log 5). -/
inductive CommandStep (s : State) : Instr → State → Prop
  | unchanged (i : Instr) : CommandStep s i s
  | ping (e : Nibble) : CommandStep s (.ping e) (s.emit [pingByte e])
  | regRead (r : Nibble) : CommandStep s (.regRead r) ((readReg r s).2.emit (halfBytes (readReg r s).1))
  | clear (imm : Nibble) : CommandStep s (.clearBuffer imm) s.dbClear
  | askColumn (imm : Nibble) (hst : s.pe.state = .idle) :
      CommandStep s (.pushLine imm) (s.awaitPayload (colBytes s.cfg.vp))
  | columnByte (imm : Nibble) {p : Byte} {rest : List Byte} (hst : s.pe.state = .payload) (hrx : s.rx = p :: rest)
      (hneed : s.pe.need - 1 ≠ 0) : CommandStep s (.pushLine imm) (s.takePayload p rest)
  | lastColumnByte (imm : Nibble) {p : Byte} {rest : List Byte} (hst : s.pe.state = .payload) (hrx : s.rx = p :: rest)
      (hneed : s.pe.need - 1 = 0) : CommandStep s (.pushLine imm) ((s.takePayload p rest).setPe .waitSpace)
  | push (imm : Nibble) (hst : s.pe.state = .waitSpace) (hroom : s.db.count < s.cfg.cap) :
      CommandStep s (.pushLine imm) (pushComplete s)
  | askValue (r : Nibble) (hst : s.pe.state = .idle) : CommandStep s (.regWrite r) (s.awaitPayload 2)
  | valueByte (r : Nibble) {p : Byte} {rest : List Byte} (hst : s.pe.state = .payload) (hrx : s.rx = p :: rest)
      (hneed : s.pe.need - 1 ≠ 0) : CommandStep s (.regWrite r) (s.takePayload p rest)
  | lastValueByte (r : Nibble) {p : Byte} {rest : List Byte} (hst : s.pe.state = .payload) (hrx : s.rx = p :: rest)
      (hneed : s.pe.need - 1 = 0) :
      CommandStep s (.regWrite r)
        ((writeReg r (valueOperand (s.pe.buf ++ [p])) (s.takePayload p rest)).setPe .idle)
  | startFlush (imm : Nibble) (hst : s.pe.state = .idle) : CommandStep s (.flushBuffer imm) (s.setPe .waitEmpty)
  | flush (imm : Nibble) (hst : s.pe.state = .waitEmpty) (hempty : s.db.count = 0) :
      CommandStep s (.flushBuffer imm) ((s.drawByte.2.emit [s.drawByte.1]).setPe .idle)

/-- COLLECT does one of three things. -/
theorem collect_cases (s : State) (finish : State → State) :
    s.collect finish = s ∨
    (∃ p rest, s.rx = p :: rest ∧ s.pe.need - 1 ≠ 0 ∧ s.collect finish = s.takePayload p rest) ∨
    (∃ p rest, s.rx = p :: rest ∧ s.pe.need - 1 = 0 ∧ s.collect finish = finish (s.takePayload p rest)) := by
  cases hrx : s.rx with
  | nil => exact .inl (by simp only [State.collect, hrx])
  | cons p rest =>
    by_cases hneed : s.pe.need - 1 = 0
    · exact .inr (.inr ⟨p, rest, rfl, hneed, by simp only [State.collect, hrx, hneed, if_true]⟩)
    · exact .inr (.inl ⟨p, rest, rfl, hneed, by simp only [State.collect, hrx, hneed, if_false]⟩)

theorem exec_pushLine_commandStep {s t : State} {imm : Nibble} (h : exec (.pushLine imm) s = .next t) :
    CommandStep s (.pushLine imm) t := by
  cases hst : s.pe.state with
  | idle =>
    cases (exec_pushLine_idle imm hst).symm.trans h
    exact .askColumn imm hst
  | payload =>
    cases (exec_pushLine_payload imm hst).symm.trans h
    rcases collect_cases s (fun t => t.setPe .waitSpace) with e | ⟨p, rest, hrx, hneed, e⟩ | ⟨p, rest, hrx, hneed, e⟩
    · rw [e]; exact .unchanged _
    · rw [e]; exact .columnByte imm hst hrx hneed
    · rw [e]; exact .lastColumnByte imm hst hrx hneed
  | waitSpace =>
    cases (exec_pushLine_waitSpace imm hst).symm.trans h
    by_cases hroom : s.db.count < s.cfg.cap
    · exact .push imm hst hroom
    · rw [pushComplete_full hroom]; exact .unchanged _
  | waitEmpty =>
    cases (exec_pushLine_waitEmpty imm hst).symm.trans h
    exact .unchanged _

theorem exec_regWrite_payload {s : State} (r : Nibble) (hst : s.pe.state = .payload) :
    exec (.regWrite r) s = .next (s.collect (fun t => (writeReg r (valueOperand t.pe.buf) t).setPe .idle)) := by
  simp only [exec, execRegWrite, hst]

theorem exec_regWrite_commandStep {s t : State} {r : Nibble} (h : exec (.regWrite r) s = .next t) :
    CommandStep s (.regWrite r) t := by
  cases hst : s.pe.state with
  | idle =>
    cases (exec_regWrite_idle r hst).symm.trans h
    exact .askValue r hst
  | payload =>
    cases (exec_regWrite_payload r hst).symm.trans h
    rcases collect_cases s (fun t => (writeReg r (valueOperand t.pe.buf) t).setPe .idle) with
      e | ⟨p, rest, hrx, hneed, e⟩ | ⟨p, rest, hrx, hneed, e⟩
    · rw [e]; exact .unchanged _
    · rw [e]; exact .valueByte r hst hrx hneed
    · rw [e]; exact .lastValueByte r hst hrx hneed
  | waitSpace =>
    cases (exec_regWrite_waiting r (.inl hst)).symm.trans h
    exact .unchanged _
  | waitEmpty =>
    cases (exec_regWrite_waiting r (.inr hst)).symm.trans h
    exact .unchanged _

theorem exec_flushBuffer_commandStep {s t : State} {imm : Nibble} (h : exec (.flushBuffer imm) s = .next t) :
    CommandStep s (.flushBuffer imm) t := by
  cases hst : s.pe.state with
  | idle =>
    cases (exec_flushBuffer_idle imm hst).symm.trans h
    exact .startFlush imm hst
  | payload =>
    cases (exec_flushBuffer_unreached imm (.inl hst)).symm.trans h
    exact .unchanged _
  | waitSpace =>
    cases (exec_flushBuffer_unreached imm (.inr hst)).symm.trans h
    exact .unchanged _
  | waitEmpty =>
    cases (exec_flushBuffer_waitEmpty imm hst).symm.trans h
    by_cases hempty : s.db.count = 0
    · rw [flushComplete_empty hempty]; exact .flush imm hst hempty
    · rw [flushComplete_waits hempty]; exact .unchanged _

/-- What a command answers is one of its effects. -/
theorem exec_commandStep {i : Instr} {s t : State} (h : exec i s = .next t) : CommandStep s i t := by
  cases i with
  | pushLine imm => exact exec_pushLine_commandStep h
  | regWrite r => exact exec_regWrite_commandStep h
  | flushBuffer imm => exact exec_flushBuffer_commandStep h
  | clearBuffer imm =>
    cases (exec_clearBuffer imm s).symm.trans h
    exact .clear imm
  | regRead r =>
    cases (exec_regRead r s).symm.trans h
    exact .regRead r
  | ping e =>
    cases (exec_ping e s).symm.trans h
    exact .ping e
  | _ =>
    cases h
    exact .unchanged _

/-! ### What a register read and write change, field by field -/

theorem readReg_emit_frame (r : Nibble) (s : State) (bs : List Byte) :
    (readReg r s).2.emit bs = { s with tx := s.tx ++ bs, draws := (readReg r s).2.draws } := by
  rw [readReg_frame]
  rfl

theorem writeReg_takePayload_frame (r : Nibble) (v : Half) (s : State) (p : Byte) (rest : List Byte) :
    ∃ reg, (writeReg r v (s.takePayload p rest)).setPe .idle = { s with
      reg := reg, rx := rest, pe := { s.pe with state := .idle, buf := s.pe.buf ++ [p], need := s.pe.need - 1 } } := by
  obtain ⟨reg, e⟩ := writeReg_frame r v (s.takePayload p rest)
  exact ⟨reg, by rw [e]; rfl⟩

theorem writeReg_aspect_of_ne {r : Nibble} (v : Half) (s : State) (h : r ≠ 3) :
    (writeReg r v s).reg.aspect = s.reg.aspect := by
  by_cases h4 : r = 4
  · rw [h4, writeReg_duty]
  · rw [writeReg_other v s h h4]

theorem writeReg_duty_of_ne {r : Nibble} (v : Half) (s : State) (h : r ≠ 4) :
    (writeReg r v s).reg.duty = s.reg.duty := by
  by_cases h3 : r = 3
  · rw [h3, writeReg_aspect]
  · rw [writeReg_other v s h3 h]

/-! ### Frames -/

/-- What a PE step of any command can change: never the configuration, the display side or the events, and of the
generator at most `au.active`. -/
theorem CommandStep.frame {s t : State} {i : Instr} (h : CommandStep s i t) :
    t = { s with
      reg := t.reg, db := t.db, au := { s.au with active := t.au.active }, idleCnt := t.idleCnt, pe := t.pe, rx := t.rx
      tx := t.tx, draws := t.draws } := by
  cases h with
  | regRead r => rw [readReg_emit_frame]
  | push imm hst hroom => rw [pushComplete_room hroom]
  | lastValueByte r hst hrx hneed =>
    obtain ⟨reg, e⟩ := writeReg_takePayload_frame r _ s _ _
    rw [e]
  | _ => rfl

/-- Settles O36: the rows left are those without effect, REG_READ and PING. -/
theorem frameOfOneByteCommands : Obligations.FrameOfOneByteCommands := by
  intro i s t hpush hflush hclear hwrite hexec
  cases exec_commandStep hexec with
  | unchanged => exact ⟨rfl, ⟨[], List.append_nil _⟩, fun _ => rfl⟩
  | ping e => exact ⟨rfl, ⟨_, rfl⟩, fun _ => rfl⟩
  | regRead r =>
    rw [readReg_emit_frame]
    exact ⟨rfl, ⟨_, rfl⟩, fun _ => rfl⟩
  | clear => exact absurd rfl hclear
  | askColumn | columnByte | lastColumnByte | push => exact absurd rfl hpush
  | askValue | valueByte | lastValueByte => exact absurd rfl hwrite
  | startFlush | flush => exact absurd rfl hflush

/-- Settles O37: of the effects of the two commands only the last COLLECT of REG_WRITE touches a register. -/
theorem frameOfFlushAndRegWrite : Obligations.FrameOfFlushAndRegWrite := by
  refine ⟨fun imm s t hexec => ?_, fun r s t hexec => ?_⟩
  · cases exec_commandStep hexec with
    | unchanged | startFlush | flush => exact ⟨rfl, fun _ => rfl⟩
  · cases exec_commandStep hexec with
    | unchanged | askValue | valueByte => exact ⟨rfl, fun _ => rfl, fun _ => rfl, fun _ => rfl⟩
    | @lastValueByte _ p rest hst hrx hneed =>
      have haspect := writeReg_aspect_of_ne (r := r) (valueOperand (s.pe.buf ++ [p])) (s.takePayload p rest)
      have hduty := writeReg_duty_of_ne (r := r) (valueOperand (s.pe.buf ++ [p])) (s.takePayload p rest)
      obtain ⟨reg, e⟩ := writeReg_frame r (valueOperand (s.pe.buf ++ [p])) (s.takePayload p rest)
      rw [e] at haspect hduty ⊢
      exact ⟨rfl, haspect, hduty, fun _ => rfl⟩

/-- Settles O38: only PUSH-COMPLETE writes a slot, the tail. -/
theorem frameOfPushLine : Obligations.FrameOfPushLine := by
  intro imm s t hexec
  cases exec_commandStep hexec with
  | unchanged | askColumn | columnByte | lastColumnByte => exact ⟨rfl, fun _ _ => rfl⟩
  | push _ hst hroom =>
    rw [pushComplete_room hroom]
    exact ⟨rfl, fun slot hslot => Memory.read_write_other _ _ hslot⟩

end Sys2Proof.Machine
end

section
/-! Commands do not see the display side of the core (`10_state.md` R43): every operation that a command is made of
commutes with putting another display side in place. -/

namespace Sys2Proof.Machine

/-- The part of the state that TICK shows: the latches, the enable, the LED events and the stepper. -/
structure DisplaySide where
  cur      : Col
  led      : Col
  oe       : Bool
  ledTrace : List LedEvent
  st       : Stepper

/-- The same state with another display side. -/
def DisplaySide.onto (d : DisplaySide) (s : State) : State :=
  { s with cur := d.cur, led := d.led, oe := d.oe, ledTrace := d.ledTrace, st := d.st }

section
variable (d : DisplaySide) (s : State)

theorem readReg_onto (r : Nibble) : readReg r (d.onto s) = ((readReg r s).1, d.onto (readReg r s).2) := by
  unfold readReg
  split <;> rfl

theorem writeReg_onto (r : Nibble) (v : Half) : writeReg r v (d.onto s) = d.onto (writeReg r v s) := by
  unfold writeReg
  split <;> rfl

theorem collect_onto {finish : State → State} (h : ∀ s, finish (d.onto s) = d.onto (finish s)) :
    (d.onto s).collect finish = d.onto (s.collect finish) := by
  have hrx : (d.onto s).rx = s.rx := rfl
  have hneed : (d.onto s).pe.need = s.pe.need := rfl
  unfold State.collect
  rw [hrx, hneed]
  cases s.rx with
  | nil => rfl
  | cons p rest =>
    dsimp only
    split
    · exact h (s.takePayload p rest)
    · rfl

theorem pushComplete_onto : pushComplete (d.onto s) = d.onto (pushComplete s) := by
  by_cases hroom : s.db.count < s.cfg.cap
  · rw [pushComplete_room hroom, pushComplete_room (s := d.onto s) hroom]
    rfl
  · rw [pushComplete_full hroom, pushComplete_full (s := d.onto s) hroom]

theorem flushComplete_onto : flushComplete (d.onto s) = d.onto (flushComplete s) := by
  by_cases hempty : s.db.count = 0
  · rw [flushComplete_empty hempty, flushComplete_empty (s := d.onto s) hempty]
    rfl
  · rw [flushComplete_waits hempty, flushComplete_waits (s := d.onto s) hempty]

theorem exec_pushLine_onto (imm : Nibble) :
    ∃ t, exec (.pushLine imm) s = .next t ∧ exec (.pushLine imm) (d.onto s) = .next (d.onto t) := by
  cases hst : s.pe.state with
  | idle => exact ⟨_, exec_pushLine_idle imm hst, exec_pushLine_idle (s := d.onto s) imm hst⟩
  | payload =>
    refine ⟨_, exec_pushLine_payload imm hst, (exec_pushLine_payload (s := d.onto s) imm hst).trans ?_⟩
    exact congrArg _ (collect_onto d s (fun _ => rfl))
  | waitSpace =>
    refine ⟨_, exec_pushLine_waitSpace imm hst, (exec_pushLine_waitSpace (s := d.onto s) imm hst).trans ?_⟩
    exact congrArg _ (pushComplete_onto d s)
  | waitEmpty => exact ⟨_, exec_pushLine_waitEmpty imm hst, exec_pushLine_waitEmpty (s := d.onto s) imm hst⟩

theorem exec_regWrite_onto (r : Nibble) :
    ∃ t, exec (.regWrite r) s = .next t ∧ exec (.regWrite r) (d.onto s) = .next (d.onto t) := by
  cases hst : s.pe.state with
  | idle => exact ⟨_, exec_regWrite_idle r hst, exec_regWrite_idle (s := d.onto s) r hst⟩
  | payload =>
    refine ⟨_, exec_regWrite_payload r hst, (exec_regWrite_payload (s := d.onto s) r hst).trans ?_⟩
    exact congrArg _ (collect_onto d s (fun t => congrArg (State.setPe · .idle) (writeReg_onto d t r _)))
  | waitSpace => exact ⟨_, exec_regWrite_waiting r (.inl hst), exec_regWrite_waiting (s := d.onto s) r (.inl hst)⟩
  | waitEmpty => exact ⟨_, exec_regWrite_waiting r (.inr hst), exec_regWrite_waiting (s := d.onto s) r (.inr hst)⟩

theorem exec_flushBuffer_onto (imm : Nibble) :
    ∃ t, exec (.flushBuffer imm) s = .next t ∧ exec (.flushBuffer imm) (d.onto s) = .next (d.onto t) := by
  cases hst : s.pe.state with
  | idle => exact ⟨_, exec_flushBuffer_idle imm hst, exec_flushBuffer_idle (s := d.onto s) imm hst⟩
  | payload =>
    exact ⟨_, exec_flushBuffer_unreached imm (.inl hst), exec_flushBuffer_unreached (s := d.onto s) imm (.inl hst)⟩
  | waitSpace =>
    exact ⟨_, exec_flushBuffer_unreached imm (.inr hst), exec_flushBuffer_unreached (s := d.onto s) imm (.inr hst)⟩
  | waitEmpty =>
    refine ⟨_, exec_flushBuffer_waitEmpty imm hst, (exec_flushBuffer_waitEmpty (s := d.onto s) imm hst).trans ?_⟩
    exact congrArg _ (flushComplete_onto d s)

theorem exec_onto (i : Instr) : ∃ t, exec i s = .next t ∧ exec i (d.onto s) = .next (d.onto t) := by
  cases i with
  | pushLine imm => exact exec_pushLine_onto d s imm
  | regWrite r => exact exec_regWrite_onto d s r
  | flushBuffer imm => exact exec_flushBuffer_onto d s imm
  | regRead r =>
    refine ⟨_, exec_regRead r s, (exec_regRead r (d.onto s)).trans ?_⟩
    rw [readReg_onto]
    rfl
  | _ => exact ⟨_, rfl, rfl⟩

end

/-- Settles O57: every command commutes with the change of display side. -/
theorem commandsDoNotSeeTheDisplay : Obligations.CommandsDoNotSeeTheDisplay := by
  intro i s t cur led oe trace st hexec
  obtain ⟨u, hs, honto⟩ := exec_onto { cur := cur, led := led, oe := oe, ledTrace := trace, st := st } s i
  cases hexec.symm.trans hs
  exact honto

end Sys2Proof.Machine
end

section
/-! The ring buffer as a bounded queue (`41_display_buffer.md`): each operation on the ring is the queue's on `db.q`,
and keeps the ring's form. -/

namespace Sys2Proof.Machine

/-! ### What keeps the ring's form -/

section
variable {c : Config} {d : DisplayBuffer}

/-- A column written at the tail of a ring with a free slot. -/
theorem BufferOk.pushed {col : Col} (h : BufferOk c d) (hroom : d.count < c.cap) (hcol : col.length = c.vp) :
    BufferOk c { mem := Memory.write c.vp d.mem (d.tail c.cap) col, head := d.head, count := d.count + 1 } :=
  ⟨h.head, hroom, Memory.wf_write h.mem (Nat.mod_lt _ c.cap_pos) hcol⟩

/-- The head's column taken. -/
theorem BufferOk.popped (h : BufferOk c d) :
    BufferOk c { mem := d.mem, head := (d.head + 1) % c.cap, count := d.count - 1 } :=
  ⟨Nat.mod_lt _ c.cap_pos, (Nat.sub_le _ _).trans h.count, h.mem⟩

theorem BufferOk.push {col : Col} (h : BufferOk c d) (hcol : col.length = c.vp) :
    BufferOk c (d.push c.vp c.cap col).2 := by
  rcases Nat.lt_or_eq_of_le h.count with hroom | hfull
  · rw [DisplayBuffer.push_room col hroom]
    exact h.pushed hroom hcol
  · rw [DisplayBuffer.push_full col hfull]
    exact h

theorem BufferOk.pop (h : BufferOk c d) : BufferOk c (d.pop c.vp c.cap).2 := by
  by_cases hempty : d.count = 0
  · rw [DisplayBuffer.pop_empty hempty]
    exact h
  · rw [DisplayBuffer.pop_some hempty]
    exact h.popped

theorem BufferOk.clear (h : BufferOk c d) : BufferOk c (d.clear c.cap) :=
  ⟨Nat.mod_lt _ c.cap_pos, Nat.zero_le _, h.mem⟩

end

/-! ### What the operations do to the content -/

theorem DisplayBuffer.q_eq_nil_iff {vp cap : Nat} {d : DisplayBuffer} : d.q vp cap = [] ↔ d.count = 0 := by
  rw [← List.length_eq_zero_iff, DisplayBuffer.q_length]

theorem DisplayBuffer.count_ne_zero_of_q {vp cap : Nat} {d : DisplayBuffer} {x : Col} {rest : List Col}
    (h : d.q vp cap = x :: rest) : d.count ≠ 0 :=
  fun h0 => List.cons_ne_nil x rest (h.symm.trans (DisplayBuffer.q_eq_nil_iff.mpr h0))

theorem DisplayBuffer.q_clear (vp cap : Nat) (d : DisplayBuffer) : (d.clear cap).q vp cap = [] := rfl

theorem DisplayBuffer.peekHead_eq_head? {vp cap : Nat} {d : DisplayBuffer} (hhead : d.head < cap) :
    d.peekHead vp = (d.q vp cap).head? := by
  by_cases h : d.count = 0
  · rw [DisplayBuffer.q_eq_nil_iff.mpr h, DisplayBuffer.peekHead, if_pos h, List.head?_nil]
  · rw [DisplayBuffer.q_cons h hhead, DisplayBuffer.peekHead, if_neg h, List.head?_cons]

/-- The oldest column is the head's; what is behind it is the ring with the head taken. -/
theorem DisplayBuffer.read_head_of_q {vp cap : Nat} {d : DisplayBuffer} {x : Col} {rest : List Col}
    (hhead : d.head < cap) (h : d.q vp cap = x :: rest) :
    Memory.read vp d.mem d.head = x ∧
      DisplayBuffer.q vp cap { mem := d.mem, head := (d.head + 1) % cap, count := d.count - 1 } = rest := by
  rw [DisplayBuffer.q_cons (DisplayBuffer.count_ne_zero_of_q h) hhead] at h
  exact List.cons.inj h

/-- Settles O39: a full and an empty ring refuse; else push writes the tail and pop reads the head. -/
theorem bufferIsABoundedQueue : Obligations.BufferIsABoundedQueue := by
  intro c d col hbuf hcol q push pop
  have hlen : q.length = d.count := DisplayBuffer.q_length _ _ _
  refine ⟨hlen.symm, DisplayBuffer.peekHead_eq_head? hbuf.head, fun hfull => ?_, fun hroom => ?_, fun hempty => ?_,
    fun x rest hq => ?_, DisplayBuffer.q_clear _ _ _, hbuf.push hcol, hbuf.pop, hbuf.clear⟩
  · exact DisplayBuffer.push_full col (hlen.symm.trans hfull)
  · have hroom' : d.count < c.cap := hlen ▸ hroom
    have hpush : push = _ := DisplayBuffer.push_room col hroom'
    rw [hpush]
    exact ⟨rfl, DisplayBuffer.q_write_tail col hroom' hbuf.mem.1⟩
  · exact DisplayBuffer.pop_empty (DisplayBuffer.q_eq_nil_iff.mp hempty)
  · have hpop : pop = _ := DisplayBuffer.pop_some (DisplayBuffer.count_ne_zero_of_q hq)
    obtain ⟨hread, hrest⟩ := DisplayBuffer.read_head_of_q hbuf.head hq
    rw [hpop]
    exact ⟨congrArg some hread, hrest⟩

end Sys2Proof.Machine
end

section
/-! The stepper over many ticks (`42_stepper_sequencer.md` R173): the phase goes round the eight values, the step count
round the rotation. -/

namespace Sys2Proof.Machine

/-- `DIR_DELTA` modulo 8. -/
def phaseStride : Direction → Nat
  | .plusOne => 1
  | .minusOne => 7

theorem nextPhase_val (dir : Direction) (p : Fin 8) : (nextPhase dir p).val = (p.val + phaseStride dir) % 8 := by
  cases dir with
  | plusOne => exact nextPhase_plusOne_val p
  | minusOne => exact nextPhase_minusOne_val p

@[simp] theorem ticks_zero (s : State) : ticks 0 s = s := rfl

theorem ticks_succ (n : Nat) (s : State) : ticks (n + 1) s = ticks n (tick s) := rfl

theorem tick_step (s : State) : (tick s).st.step = (s.st.step + 1) % s.cfg.rs := by
  rw [tick_st, stepMotor_st_step]

theorem tick_phase_val (s : State) : (tick s).st.phase.val = (s.st.phase.val + phaseStride s.cfg.dirDelta) % 8 := by
  rw [tick_st, stepMotor_st_phase, nextPhase_val]

theorem ticks_cfg (n : Nat) (s : State) : (ticks n s).cfg = s.cfg := by
  induction n generalizing s with
  | zero => rfl
  | succ n ih => rw [ticks_succ, ih, tick_cfg]

theorem ticks_phase_val (n : Nat) (s : State) :
    (ticks n s).st.phase.val = (s.st.phase.val + n * phaseStride s.cfg.dirDelta) % 8 := by
  induction n generalizing s with
  | zero =>
    rw [ticks_zero, Nat.zero_mul, Nat.add_zero, Nat.mod_eq_of_lt s.st.phase.isLt]
  | succ n ih => rw [ticks_succ, ih, tick_phase_val, tick_cfg, Nat.mod_add_mod, Nat.succ_mul, Nat.add_right_comm,
      Nat.add_assoc]

theorem ticks_step {s : State} (n : Nat) (h : s.st.step < s.cfg.rs) :
    (ticks n s).st.step = (s.st.step + n) % s.cfg.rs := by
  induction n generalizing s with
  | zero => rw [ticks_zero, Nat.add_zero, Nat.mod_eq_of_lt h]
  | succ n ih =>
    have hlt : (tick s).st.step < (tick s).cfg.rs := by
      rw [tick_step, tick_cfg]
      exact Nat.mod_lt _ (by have := s.cfg.rs_ge; omega)
    rw [ticks_succ, ih hlt, tick_step, tick_cfg, Nat.mod_add_mod, Nat.add_assoc, Nat.add_comm 1]

/-- The ticks after which a phase shows are those of one residue modulo 8. -/
theorem phase_eq_iff_modEq (dir : Direction) (a p : Fin 8) : ∃ v, ∀ k,
    (a.val + (k + 1) * phaseStride dir) % 8 = p.val ↔ k ≡ v [MOD 8] := by
  have ha := a.isLt
  have hp := p.isLt
  cases dir with
  | plusOne => exact ⟨p.val + 7 - a.val, fun k => by simp only [phaseStride, Nat.ModEq]; omega⟩
  | minusOne => exact ⟨a.val + 7 - p.val, fun k => by simp only [phaseStride, Nat.ModEq]; omega⟩

/-- Of `n` consecutive numbers, with 8 dividing `n`, `n / 8` lie in a residue class modulo 8. -/
theorem count_modEq_eight {n : Nat} (v : Nat) (h : n % 8 = 0) : n.count (· ≡ v [MOD 8]) = n / 8 := by
  rw [Nat.count_modEq_card n (by decide) v, h, if_neg (Nat.not_lt_zero _), Nat.add_zero]

/-- Settles O41: RS is a multiple of 8, so the phase returns, and a rotation meets each residue RS/8 times. -/
theorem stepperPeriodicity : Obligations.StepperPeriodicity := by
  intro s hstep
  have hrs := s.cfg.rs_dvd
  have hturns : s.cfg.rs * phaseStride s.cfg.dirDelta % 8 = 0 := by rw [Nat.mul_mod, hrs, Nat.zero_mul, Nat.zero_mod]
  refine ⟨Fin.ext ?_, ?_, fun p => ?_⟩
  · rw [ticks_phase_val, Nat.add_mod, hturns, Nat.add_zero, Nat.mod_mod, Nat.mod_eq_of_lt s.st.phase.isLt]
  · rw [ticks_step _ hstep, Nat.add_mod_right, Nat.mod_eq_of_lt hstep]
  · obtain ⟨v, hv⟩ := phase_eq_iff_modEq s.cfg.dirDelta s.st.phase p
    have hphase (k : Nat) : ((ticks (k + 1) s).st.phase == p) = decide (k ≡ v [MOD 8]) := by
      rw [Bool.eq_iff_iff, beq_iff_eq, decide_eq_true_iff, Fin.ext_iff, ticks_phase_val, hv]
    simp only [hphase]
    rw [← List.countP_eq_length_filter]
    exact count_modEq_eight v hrs

end Sys2Proof.Machine
end

section
/-! The Scan-Out Renderer off and on a boundary (`43_scanout_renderer.md`): the gate after every tick, the column
held. -/

namespace Sys2Proof

theorem Config.hp_pos (c : Config) : 1 ≤ c.hp := (of_decide_eq_true c.ok_groups.1).2.2.2.1

end Sys2Proof

namespace Sys2Proof.Machine

/-- Settles O42: the gate comes last and reads the stepper and the registers, which the boundary's work leaves alone. -/
theorem dutyGatesTheOutputEnable : Obligations.DutyGatesTheOutputEnable := by
  intro s
  by_cases h : (s.st.step + 1) % s.cfg.rs % csteps s = 0
  · obtain ⟨db, cur, led, tr, au, i, e⟩ := boundary_frame (stepMotor s)
    rw [tick_boundary h, e]
    rfl
  · rw [tick_off h]
    rfl

/-- Settles O43: at aspect 0x0100 the formula gives PF sub-ticks, and HP * PF * SPF = RS. -/
theorem nominalColumnsDivideTheRotation : Obligations.NominalColumnsDivideTheRotation := by
  intro s haspect
  have hpf := s.cfg.pf_pos
  have hsub : colSubticks s.cfg s.reg.aspect = s.cfg.pf := by
    rw [colSubticks, haspect, show (0x0100 : Half).toNat = 256 from rfl, Nat.mul_div_cancel _ (by decide),
      Nat.max_eq_right hpf]
  have hcol : csteps s = s.cfg.pf * s.cfg.spf := by rw [csteps, hsub]
  have hrot : s.cfg.hp * csteps s = s.cfg.rs := by rw [hcol, ← Nat.mul_assoc, s.cfg.rotation]
  exact ⟨hcol, (Nat.div_eq_of_eq_mul_right s.cfg.hp_pos hrot.symm).symm, hrot⟩

/-- Off a boundary a tick only steps the motor and gates the enable. -/
theorem tick_off_hold {s : State} (h : (s.st.step + 1) % s.cfg.rs % csteps s ≠ 0) :
    (tick s).db = s.db ∧ (tick s).au = s.au ∧ (tick s).idleCnt = s.idleCnt ∧ (tick s).cur = s.cur ∧
      (tick s).led = s.led ∧ (tick s).ledTrace = s.ledTrace := by
  rw [tick_off h]
  exact ⟨rfl, rfl, rfl, rfl, rfl, rfl⟩

theorem boundary_empty {s : State} (h : s.db.count = 0) : boundary s = fallback false s := by
  rw [boundary, fetchColumn_empty h]

/-- An empty boundary runs the generator only, which does not touch the display. -/
theorem boundary_empty_hold {s : State} (h : s.db.count = 0) :
    (boundary s).cur = s.cur ∧ (boundary s).led = s.led ∧ (boundary s).ledTrace = s.ledTrace := by
  obtain ⟨db, au, i, e⟩ := fallback_frame false s
  rw [boundary_empty h, e]
  exact ⟨rfl, rfl, rfl⟩

/-- Settles O45: off a boundary nothing is fetched, and an empty buffer gives nothing to fetch. -/
theorem otherTicksHoldTheColumn : Obligations.OtherTicksHoldTheColumn := by
  intro s
  refine ⟨fun hhold => ?_, fun hoff => ?_⟩
  · by_cases h : (s.st.step + 1) % s.cfg.rs % csteps s = 0
    · rw [tick_boundary h]
      exact boundary_empty_hold (s := stepMotor s) (hhold.resolve_right (not_not_intro h))
    · obtain ⟨_, _, _, hcur, hled, htrace⟩ := tick_off_hold h
      exact ⟨hcur, hled, htrace⟩
  · obtain ⟨hdb, hau, hidle, _⟩ := tick_off_hold hoff
    exact ⟨hdb, hau, hidle⟩

/-- Settles O46: none of these is among the fields that a tick can change. -/
theorem tickLeavesTheEngineAlone : Obligations.TickLeavesTheEngineAlone := by
  intro s
  obtain ⟨db, cur, led, oe, tr, au, i, e⟩ := tick_frame s
  rw [e]
  exact ⟨rfl, rfl, rfl, rfl, rfl, rfl, rfl⟩

end Sys2Proof.Machine
end

section
/-! The elementary transition (`45_automaton_generator.md` R231): what `caNext` puts at each cell. -/

namespace Sys2Proof.Machine

@[simp] theorem caNext_length (rule : Byte) (row : Col) : (caNext rule row).length = row.length := by
  rw [caNext, List.length_map, List.length_range]

theorem caNext_getD (rule : Byte) (row : Col) {i : Nat} (h : i < row.length) :
    (caNext rule row).getD i false =
      caCell rule (row.getD ((i + (row.length - 1)) % row.length) false) (row.getD i false)
        (row.getD ((i + 1) % row.length) false) := by
  rw [List.getD_eq_getElem _ _ (by rw [caNext_length]; exact h)]
  simp only [caNext, List.getElem_map, List.getElem_range]

/-- The left neighbour on a circle of `n` cells. -/
theorem left_on_circle {i n : Nat} (h : i < n) : (i + (n - 1)) % n = if i = 0 then n - 1 else i - 1 := by
  split
  · next h0 => rw [h0, Nat.zero_add, Nat.mod_eq_of_lt (by omega)]
  · next h0 =>
    have hwrap : i + (n - 1) = i - 1 + n := by omega
    rw [hwrap, Nat.add_mod_right, Nat.mod_eq_of_lt (by omega)]

/-- The right neighbour on a circle of `n` cells. -/
theorem right_on_circle {i n : Nat} (h : i < n) : (i + 1) % n = if i + 1 = n then 0 else i + 1 := by
  split
  · next hn => rw [hn, Nat.mod_self]
  · next hn => exact Nat.mod_eq_of_lt (by omega)

/-- Settles O47: the neighbours by their distance modulo the length are those on the circle. -/
theorem automatonTransition : Obligations.AutomatonTransition := by
  refine fun rule row => ⟨caNext_length rule row, fun i h => ?_⟩
  rw [caNext_getD rule row h, left_on_circle h, right_on_circle h]
  rfl

end Sys2Proof.Machine
end

section
/-! The column fetch of a boundary, whether the buffer is empty or not: what it leaves alone, and the ring behind it. -/

namespace Sys2Proof.Machine

section
variable (s : State)

/-- What a column fetch can change. -/
theorem fetchColumn_frame :
    ∃ db cur led tr, (fetchColumn s).2 = { s with db := db, cur := cur, led := led, ledTrace := tr } := by
  by_cases h : s.db.count = 0
  · rw [fetchColumn_empty h]
    exact ⟨_, _, _, _, rfl⟩
  · rw [fetchColumn_some h]
    exact ⟨_, _, _, _, rfl⟩

@[simp] theorem fetchColumn_cfg : (fetchColumn s).2.cfg = s.cfg := by
  obtain ⟨_, _, _, _, e⟩ := fetchColumn_frame s
  rw [e]

@[simp] theorem fetchColumn_au : (fetchColumn s).2.au = s.au := by
  obtain ⟨_, _, _, _, e⟩ := fetchColumn_frame s
  rw [e]

@[simp] theorem fetchColumn_idleCnt : (fetchColumn s).2.idleCnt = s.idleCnt := by
  obtain ⟨_, _, _, _, e⟩ := fetchColumn_frame s
  rw [e]

@[simp] theorem fetchColumn_pe : (fetchColumn s).2.pe = s.pe := by
  obtain ⟨_, _, _, _, e⟩ := fetchColumn_frame s
  rw [e]

@[simp] theorem fetchColumn_count : (fetchColumn s).2.db.count = s.db.count - 1 := by
  by_cases h : s.db.count = 0
  · rw [fetchColumn_empty h, h]
  · rw [fetchColumn_some h]

end

variable {s : State}

theorem fetchColumn_popped_iff : (fetchColumn s).1 = true ↔ s.db.count ≠ 0 := by
  by_cases h : s.db.count = 0
  · simp [fetchColumn_empty h, h]
  · simp [fetchColumn_some h, h]

theorem fetchColumn_bufferOk (hbuf : BufferOk s.cfg s.db) : BufferOk s.cfg (fetchColumn s).2.db := by
  by_cases h : s.db.count = 0
  · rw [fetchColumn_empty h]
    exact hbuf
  · rw [fetchColumn_some h]
    exact hbuf.popped

/-- A ring in good form has a free slot after the fetch, so that FRAME never backs off. -/
theorem fetchColumn_room (hbuf : BufferOk s.cfg s.db) : (fetchColumn s).2.db.count < s.cfg.cap := by
  have hcap := s.cfg.cap_pos
  have hcount := hbuf.count
  rw [fetchColumn_count]
  omega

theorem queue_eq_nil_iff : s.queue = [] ↔ s.db.count = 0 := DisplayBuffer.q_eq_nil_iff

/-- The oldest column leaves the buffer and is shown and shifted out. -/
theorem fetchColumn_of_queue {c : Col} {rest : List Col} (hbuf : BufferOk s.cfg s.db) (h : s.queue = c :: rest) :
    (fetchColumn s).1 = true ∧ (fetchColumn s).2.queue = rest ∧ (fetchColumn s).2.cur = c ∧
      (fetchColumn s).2.led = c ∧ (fetchColumn s).2.ledTrace = s.ledTrace ++ shiftEvents c := by
  obtain ⟨hread, hrest⟩ := DisplayBuffer.read_head_of_q hbuf.head h
  rw [fetchColumn_some (DisplayBuffer.count_ne_zero_of_q h), hread]
  exact ⟨rfl, hrest, rfl, rfl, rfl⟩

end Sys2Proof.Machine
end

section
/-! The Automaton Generator on a boundary (`45_automaton_generator.md` R234, R235): which frame it shows, and when it
adds one to the buffer. -/

namespace Sys2Proof.Machine

/-! ### The generator's state after FRAME -/

/-- The generator after FRAME into a buffer with a free slot. -/
def shownFrame (c : Config) (a : Automaton) : Automaton :=
  { advance (rotate c a) with frames := (advance (rotate c a)).frames + 1 }

theorem frame_au {s : State} (h : s.db.count < s.cfg.cap) : (frame s).au = shownFrame s.cfg s.au := by
  rw [frame_room h]
  rfl

/-- The row shown joins the back of the buffer. -/
theorem frame_queue {s : State} (hbuf : BufferOk s.cfg s.db) (h : s.db.count < s.cfg.cap) :
    (frame s).queue = s.queue ++ [(frame s).au.row] := by
  rw [frame_room h]
  exact DisplayBuffer.q_write_tail _ h hbuf.mem.1

theorem frame_idleCnt (s : State) : (frame s).idleCnt = s.idleCnt := by
  obtain ⟨_, _, e⟩ := frame_frame s
  rw [e]

section
variable {c : Config} {a : Automaton}

theorem shownFrame_active : (shownFrame c a).active = a.active :=
  (advance_active _).trans (rotate_active c a)

/-- A reseeded rule shows its seed. -/
theorem shownFrame_reseed : shownFrame c (reseed c.vp a) = { reseed c.vp a with frames := 1 } := by
  rw [shownFrame, rotate_reseed, advance_reseed]
  rfl

theorem shownFrame_spent (h : budgetSpent c a = true) :
    shownFrame c a = { reseed c.vp { a with ridx := a.ridx + 1 } with frames := 1 } := by
  rw [shownFrame, rotate_spent h, advance_reseed]
  rfl

/-- A rule that has shown nothing shows its row as it is. -/
theorem shownFrame_first (h : ¬ budgetSpent c a = true) (h0 : a.frames = 0) :
    shownFrame c a = { a with frames := a.frames + 1 } := by
  simp only [shownFrame, rotate_unspent h, advance, h0, if_true]

theorem shownFrame_next (h : ¬ budgetSpent c a = true) (h0 : a.frames ≠ 0) :
    shownFrame c a = { a with
      row := caNext (currentRule a) a.row
      frames := a.frames + 1
      prev := a.row
      prevValid := true
      stuck := a.stuck || repeats a (caNext (currentRule a) a.row) } := by
  simp only [shownFrame, rotate_unspent h, advance, h0, if_false]

theorem repeats_iff {row : Col} : repeats a row = true ↔ row = a.row ∨ (a.prevValid = true ∧ row = a.prev) := by
  simp [repeats]

/-- FRAME keeps the rule unless its budget is spent, and counts one frame. -/
theorem shownFrame_unspent (h : ¬ budgetSpent c a = true) :
    (shownFrame c a).ridx = a.ridx ∧ (shownFrame c a).frames = a.frames + 1 := by
  by_cases h0 : a.frames = 0
  · rw [shownFrame_first h h0]
    exact ⟨rfl, rfl⟩
  · rw [shownFrame_next h h0]
    exact ⟨rfl, rfl⟩

end

/-! ### When FALLBACK adds a column -/

/-- The generator has just become active, before its first frame (R235). -/
def startGenerator (s : State) : State :=
  { s with idleCnt := 0, au := reseed s.cfg.vp { s.au with active := true } }

theorem fallback_starts {s : State} (h : s.pe.state = .idle) (ha : s.au.active = false)
    (hi : s.cfg.idleColumns ≤ s.idleCnt + 1) : fallback false s = frame (startGenerator s) :=
  fallback_activates h ha hi

/-- The first frame is the seed, whatever the rule had shown before (D25). -/
theorem frame_startGenerator_au {s : State} (h : s.db.count < s.cfg.cap) :
    (frame (startGenerator s)).au = { reseed s.cfg.vp { s.au with active := true } with frames := 1 } :=
  (frame_au (s := startGenerator s) h).trans shownFrame_reseed

/-- FALLBACK runs FRAME: the generator is active, or starts now (D20, D21). -/
def Generates (popped : Bool) (s : State) : Prop :=
  s.pe.state = .idle ∧ (s.au.active = true ∨ (popped = false ∧ s.cfg.idleColumns ≤ s.idleCnt + 1))

theorem generates_true_iff (s : State) : Generates true s ↔ s.pe.state = .idle ∧ s.au.active = true := by
  simp [Generates]

section
variable {s : State} {popped : Bool}

theorem fallback_of_not_generates (h : ¬ Generates popped s) :
    (fallback popped s).db = s.db ∧ (fallback popped s).cfg = s.cfg := by
  rcases fallback_cases popped s with
    ⟨_, e⟩ | ⟨hst, hact, _⟩ | ⟨_, _, _, e⟩ | ⟨_, _, _, _, e⟩ | ⟨hst, _, hpop, hidle, _⟩
  · rw [e]; exact ⟨rfl, rfl⟩
  · exact absurd ⟨hst, .inl hact⟩ h
  · rw [e]; exact ⟨rfl, rfl⟩
  · rw [e]; exact ⟨rfl, rfl⟩
  · exact absurd ⟨hst, .inr ⟨hpop, hidle⟩⟩ h

theorem fallback_queue_of_not_generates (h : ¬ Generates popped s) : (fallback popped s).queue = s.queue := by
  obtain ⟨hdb, hcfg⟩ := fallback_of_not_generates h
  rw [State.queue, hdb, hcfg, State.queue]

theorem fallback_queue_of_generates (hbuf : BufferOk s.cfg s.db) (hroom : s.db.count < s.cfg.cap)
    (h : Generates popped s) : (fallback popped s).queue = s.queue ++ [(fallback popped s).au.row] := by
  obtain ⟨hst, hwhy⟩ := h
  cases hact : s.au.active with
  | true =>
    rw [fallback_active popped hst hact]
    exact frame_queue hbuf hroom
  | false =>
    obtain ⟨rfl, hidle⟩ := hwhy.resolve_left (by rw [hact]; exact Bool.false_ne_true)
    rw [fallback_starts hst hact hidle]
    exact frame_queue (s := startGenerator s) hbuf hroom

end

/-! ### The buffer after a boundary -/

section
variable {s : State}

/-- A boundary that finds the buffer empty leaves in it at most what the generator adds. -/
theorem boundary_queue_empty (hbuf : BufferOk s.cfg s.db) (h : s.queue = []) :
    (Generates false s → (boundary s).queue = [(boundary s).au.row]) ∧
      (¬ Generates false s → (boundary s).queue = []) := by
  have hcount := queue_eq_nil_iff.mp h
  rw [boundary_empty hcount]
  refine ⟨fun hgen => ?_, fun hgen => by rw [fallback_queue_of_not_generates hgen, h]⟩
  rw [fallback_queue_of_generates hbuf (by rw [hcount]; exact s.cfg.cap_pos) hgen, h, List.nil_append]

/-- A boundary that finds a column shows it, and leaves the rest with what the generator adds. -/
theorem boundary_queue_cons {c : Col} {rest : List Col} (hbuf : BufferOk s.cfg s.db) (h : s.queue = c :: rest) :
    (Generates true s → (boundary s).queue = rest ++ [(boundary s).au.row]) ∧
      (¬ Generates true s → (boundary s).queue = rest) := by
  obtain ⟨hpop, hrest, _⟩ := fetchColumn_of_queue hbuf h
  have hgen : Generates true (fetchColumn s).2 ↔ Generates true s := by
    rw [generates_true_iff, generates_true_iff, fetchColumn_pe, fetchColumn_au]
  rw [boundary, hpop, ← hgen]
  refine ⟨fun hg => ?_, fun hg => by rw [fallback_queue_of_not_generates hg, hrest]⟩
  have hbuf' : BufferOk (fetchColumn s).2.cfg (fetchColumn s).2.db := by
    rw [fetchColumn_cfg]
    exact fetchColumn_bufferOk hbuf
  rw [fallback_queue_of_generates hbuf' (by rw [fetchColumn_cfg]; exact fetchColumn_room hbuf) hg, hrest]

/-- A boundary's fetch shows the oldest column; the generator leaves the display alone. -/
theorem boundary_shows {c : Col} {rest : List Col} (hbuf : BufferOk s.cfg s.db) (h : s.queue = c :: rest) :
    (boundary s).cur = c ∧ (boundary s).led = c ∧ (boundary s).ledTrace = s.ledTrace ++ shiftEvents c := by
  obtain ⟨_, _, hcur, hled, htrace⟩ := fetchColumn_of_queue hbuf h
  obtain ⟨db, au, i, e⟩ := fallback_frame (fetchColumn s).1 (fetchColumn s).2
  rw [boundary, e]
  exact ⟨hcur, hled, htrace⟩

/-- With the engine idle and the generator active a boundary is the fetch and one FRAME. -/
theorem boundary_active (hst : s.pe.state = .idle) (hact : s.au.active = true) :
    boundary s = frame (fetchColumn s).2 :=
  fallback_active _ (by rw [fetchColumn_pe, hst]) (by rw [fetchColumn_au, hact])

/-- With at most one column in the buffer, an active generator's new row is then the only one. -/
theorem boundary_active_one (hbuf : BufferOk s.cfg s.db) (hst : s.pe.state = .idle) (hact : s.au.active = true)
    (hcount : s.db.count ≤ 1) :
    (boundary s).queue = [(boundary s).au.row] ∧ (boundary s).au = shownFrame s.cfg s.au ∧
      (boundary s).idleCnt = s.idleCnt := by
  have hempty : (fetchColumn s).2.db.count = 0 := by
    rw [fetchColumn_count]
    omega
  have hroom : (fetchColumn s).2.db.count < (fetchColumn s).2.cfg.cap := by
    rw [fetchColumn_cfg]
    exact fetchColumn_room hbuf
  have hbuf' : BufferOk (fetchColumn s).2.cfg (fetchColumn s).2.db := by
    rw [fetchColumn_cfg]
    exact fetchColumn_bufferOk hbuf
  rw [boundary_active hst hact]
  refine ⟨?_, ?_, ?_⟩
  · rw [frame_queue hbuf' hroom, queue_eq_nil_iff.mpr hempty, List.nil_append]
  · rw [frame_au hroom, fetchColumn_cfg, fetchColumn_au]
  · rw [frame_idleCnt, fetchColumn_idleCnt]

/-- With a command in progress a boundary is the fetch alone (D21). -/
theorem boundary_busy (hst : s.pe.state ≠ .idle) : boundary s = (fetchColumn s).2 :=
  fallback_busy _ (by rw [fetchColumn_pe]; exact hst)

/-- With the generator suspended a boundary that pops a column zeroes the idle count (D20). -/
theorem boundary_pops (hst : s.pe.state = .idle) (hact : s.au.active = false) (hcount : s.db.count ≠ 0) :
    boundary s = { (fetchColumn s).2 with idleCnt := 0 } := by
  rw [boundary, fetchColumn_popped_iff.mpr hcount]
  exact fallback_popped (by rw [fetchColumn_pe, hst]) (by rw [fetchColumn_au, hact])

end

/-! ### The statements -/

/-- Settles O44: the fetch shows the column, and FALLBACK joins a row behind the rest if the generator is active. -/
theorem boundaryShowsTheOldestColumn : Obligations.BoundaryShowsTheOldestColumn := by
  intro s c rest hbuf hq hpos
  obtain ⟨hcur, hled, htrace⟩ := boundary_shows (s := stepMotor s) hbuf hq
  obtain ⟨hgen, hrest⟩ := boundary_queue_cons (s := stepMotor s) hbuf hq
  rw [generates_true_iff] at hgen hrest
  rw [tick_boundary hpos]
  exact ⟨hcur, hled, htrace, hgen, hrest⟩

/-- Settles O48: the two counting cases of FALLBACK; the second starts the generator, whose first frame is its seed.
-/
theorem fallbackActivation : Obligations.FallbackActivation := by
  intro s hbuf hst hact hcount hidle hpos
  rw [tick_boundary hpos, boundary_empty (s := stepMotor s) hcount]
  refine ⟨fun hbelow => ?_, fun hreached => ?_⟩
  · rw [fallback_counts (s := stepMotor s) hst hact hbelow]
    exact ⟨rfl, rfl, rfl⟩
  · have hroom : s.db.count < s.cfg.cap := by
      rw [hcount]
      exact s.cfg.cap_pos
    obtain ⟨hgen, _⟩ := boundary_queue_empty (s := stepMotor s) hbuf (queue_eq_nil_iff.mpr hcount)
    have hqueue := hgen ⟨hst, .inr ⟨rfl, hreached.ge⟩⟩
    have hau := frame_startGenerator_au (s := stepMotor s) hroom
    have hstart := fallback_starts (s := stepMotor s) hst hact hreached.ge
    rw [boundary_empty (s := stepMotor s) hcount, hstart, hau] at hqueue
    rw [hstart, gate_au, hau]
    exact ⟨frame_idleCnt _, hqueue, rfl, rfl, rfl, rfl, rfl, rfl⟩

/-- Settles O49: what is in the buffer leaves first, so FRAME's row is alone. -/
theorem activeGeneratorShowsTheNextFrame : Obligations.ActiveGeneratorShowsTheNextFrame := by
  intro s hbuf hst hact hcount hpos spent nxt
  obtain ⟨hqueue, hau, hidle⟩ := boundary_active_one (s := stepMotor s) hbuf hst hact hcount
  have hspent : budgetSpent s.cfg s.au = true ↔ spent := budgetSpent_iff _ _
  have hau' : (tick s).au = shownFrame s.cfg s.au := by
    rw [tick_boundary hpos]
    exact hau
  rw [hau', ← hspent, tick_boundary hpos]
  refine ⟨hau ▸ hqueue, by rw [shownFrame_active, hact], hidle, fun h => ?_, shownFrame_unspent, fun h h0 => ?_,
    fun h h0 => ?_⟩
  · rw [shownFrame_spent h]
    exact ⟨Fin.val_add s.au.ridx 1, rfl, rfl, rfl, rfl⟩
  · rw [shownFrame_first h h0]
    exact ⟨rfl, rfl⟩
  · rw [shownFrame_next h h0]
    refine ⟨rfl, rfl, rfl, ?_⟩
    rw [Bool.or_eq_true, repeats_iff]
    exact Iff.rfl

/-- Settles O50: with a command in progress a boundary is the fetch alone; with the generator suspended a pop only
zeroes the count. -/
theorem generatorPausesForTheEngine : Obligations.GeneratorPausesForTheEngine := by
  refine ⟨fun s hst => ?_, fun s hst hact hcount hpos => ?_⟩
  · by_cases hpos : (s.st.step + 1) % s.cfg.rs % csteps s = 0
    · rw [tick_boundary hpos, boundary_busy (s := stepMotor s) hst]
      refine ⟨fetchColumn_au (stepMotor s), fetchColumn_idleCnt (stepMotor s), ?_⟩
      rw [gate_db, fetchColumn_count]
      exact Nat.sub_le _ _
    · obtain ⟨hdb, hau, hidle, _⟩ := tick_off_hold hpos
      exact ⟨hau, hidle, hdb ▸ le_rfl⟩
  · rw [tick_boundary hpos, boundary_pops (s := stepMotor s) hst hact hcount]
    refine ⟨rfl, fetchColumn_au (stepMotor s), ?_⟩
    rw [gate_db, fetchColumn_count]
    exact Nat.succ_pred_eq_of_ne_zero hcount

end Sys2Proof.Machine
end

section
/-! The invariant of the Protocol Engine (`10_state.md` R37), by what a step does to the parser; and which command the
stored opcode names. -/

namespace Sys2Proof

theorem Opc.pushLine_ne_regWrite {o : Opc} (h : o.assigned.Nodup) : o.pushLine ≠ o.regWrite := by
  simp only [Opc.assigned, List.nodup_cons, List.mem_cons, not_or] at h
  tauto

theorem Opc.clearBuffer_ne {o : Opc} (h : o.assigned.Nodup) :
    o.pushLine ≠ o.clearBuffer ∧ o.regWrite ≠ o.clearBuffer ∧ o.flushBuffer ≠ o.clearBuffer := by
  simp only [Opc.assigned, List.nodup_cons, List.mem_cons, not_or] at h
  tauto

end Sys2Proof

namespace Sys2Proof.Machine

/-- The row of the command in progress is told by the stored opcode. -/
theorem row_inProgress_eq_iff (s : State) {k : Nat} (hk : k < s.cfg.opc.rows.length) :
    (inProgress s).row = k ↔ s.pe.op = s.cfg.opc.rows[k] := by
  rw [inProgress, ← decodeByte_append, row_decodeByte_eq_iff s.cfg.opc_nodup _ hk, (fields_append _ _).1]

/-- The stored opcode is the nibble of the row in progress; for a given command that is the field of `OPC` named after
it. -/
theorem op_of_inProgress {s : State} {i : Instr} (h : inProgress s = i) :
    s.pe.op = s.cfg.opc.rows[i.row]'(Opc.row_lt_rows_length s.cfg.opc_nodup i) :=
  (row_inProgress_eq_iff s _).mp (by rw [h])

section
variable {c : Config} {e : Engine}

/-- In IDLE only the length of the buffer is said. -/
theorem EngineOk.of_idle (hst : e.state = .idle) (hbuf : e.buf.length ≤ max (colBytes c.vp) 2) : EngineOk c e where
  buf := hbuf
  payload h := by rw [hst] at h; cases h
  waitSpace h := by rw [hst] at h; cases h
  waitEmpty h := by rw [hst] at h; cases h

/-- Back to IDLE, from every state of the parser. -/
theorem EngineOk.toIdle (h : EngineOk c e) : EngineOk c { e with state := .idle } :=
  .of_idle rfl h.buf

/-- DISPATCH of a command with a payload: nothing is received yet. -/
theorem EngineOk.ask {n : Nat} (hbuf : e.buf = []) (hpos : 0 < n)
    (hn : (e.op = c.opc.pushLine ∧ n = colBytes c.vp) ∨ (e.op = c.opc.regWrite ∧ n = 2)) :
    EngineOk c { e with need := n, state := .payload } where
  buf := by simp [hbuf]
  payload _ := by simpa [hbuf] using ⟨hpos, hn⟩
  waitSpace h := by cases h
  waitEmpty h := by cases h

/-- In PAYLOAD there is room for one more byte. -/
theorem EngineOk.buf_succ (h : EngineOk c e) (hst : e.state = .payload) (p : Byte) :
    (e.buf ++ [p]).length ≤ max (colBytes c.vp) 2 := by
  obtain ⟨hpos, hlen⟩ := h.payload hst
  rw [List.length_append, List.length_singleton]
  omega

/-- A payload byte that is not the last one. -/
theorem EngineOk.collect (h : EngineOk c e) (hst : e.state = .payload) (hneed : e.need - 1 ≠ 0) (p : Byte) :
    EngineOk c { e with buf := e.buf ++ [p], need := e.need - 1 } where
  buf := h.buf_succ hst p
  payload _ := by
    obtain ⟨hpos, hlen⟩ := h.payload hst
    have hsum : (e.buf ++ [p]).length + (e.need - 1) = e.buf.length + e.need := by
      rw [List.length_append, List.length_singleton]
      omega
    refine ⟨Nat.pos_of_ne_zero hneed, ?_⟩
    rw [hsum]
    exact hlen
  waitSpace h := by rw [hst] at h; cases h
  waitEmpty h := by rw [hst] at h; cases h

/-- The last payload byte of a PUSH_LINE: a whole column is there. -/
theorem EngineOk.arm (h : EngineOk c e) (hst : e.state = .payload) (hneed : e.need - 1 = 0)
    (hop : e.op = c.opc.pushLine) (p : Byte) :
    EngineOk c { e with buf := e.buf ++ [p], need := e.need - 1, state := .waitSpace } where
  buf := h.buf_succ hst p
  payload h := by cases h
  waitSpace _ := by
    obtain ⟨hpos, ⟨_, hlen⟩ | ⟨hreg, _⟩⟩ := h.payload hst
    · refine ⟨hop, ?_⟩
      rw [List.length_append, List.length_singleton]
      omega
    · exact absurd (hop.symm.trans hreg) (Opc.pushLine_ne_regWrite c.opc_nodup)
  waitEmpty h := by cases h

/-- A FLUSH_BUFFER starts to wait. -/
theorem EngineOk.wait (h : EngineOk c e) (hop : e.op = c.opc.flushBuffer) :
    EngineOk c { e with state := .waitEmpty } where
  buf := h.buf
  payload h := by cases h
  waitSpace h := by cases h
  waitEmpty _ := hop

/-- Outside IDLE a CLEAR_BUFFER is never in progress. -/
theorem EngineOk.op_ne_clearBuffer (h : EngineOk c e) (hst : e.state ≠ .idle) : e.op ≠ c.opc.clearBuffer := by
  obtain ⟨hpush, hwrite, hflush⟩ := Opc.clearBuffer_ne c.opc_nodup
  cases hs : e.state with
  | idle => exact absurd hs hst
  | payload =>
    obtain ⟨_, ⟨hop, _⟩ | ⟨hop, _⟩⟩ := h.payload hs
    · rw [hop]; exact hpush
    · rw [hop]; exact hwrite
  | waitSpace => rw [(h.waitSpace hs).1]; exact hpush
  | waitEmpty => rw [h.waitEmpty hs]; exact hflush

end

end Sys2Proof.Machine
end

section
/-! The invariants of the other components, each by the operation that changes the component. -/

namespace Sys2Proof.Machine

@[simp] theorem seed_length (vp : Nat) : (seed vp).length = vp := by
  rw [seed, List.length_map, List.length_range]

@[simp] theorem dark_length (vp : Nat) : (dark vp).length = vp := List.length_replicate

/-- A register write leaves registers 3 and 4 in their clamp ranges. -/
theorem RegistersOk.writeReg {s : State} (h : RegistersOk s.cfg s.reg) (r : Nibble) (v : Half) :
    RegistersOk s.cfg (writeReg r v s).reg := by
  have hrange := s.cfg.aspectRange
  have haspect := writeReg_aspect_toNat r v s
  have hduty := writeReg_duty_toNat r v s
  obtain ⟨hlow, hhigh, hmax⟩ := h
  refine ⟨?_, ?_, ?_⟩
  · rw [haspect]; split <;> omega
  · rw [haspect]; split <;> omega
  · rw [hduty]; split <;> omega

/-- The phase that belongs to a step count goes one on with it. -/
theorem phaseAfter_succ (dir : Direction) (n : Nat) :
    phaseAfter dir (n + 1) = (phaseAfter dir n + phaseStride dir) % 8 := by
  cases dir <;> simp only [phaseAfter, phaseStride] <;> omega

/-- A rotation is a multiple of 8 steps, so the wrap of the step count does not move the phase. -/
theorem phaseAfter_mod_rs (c : Config) (dir : Direction) (n : Nat) : phaseAfter dir (n % c.rs) = phaseAfter dir n := by
  have h : n % c.rs % 8 = n % 8 := Nat.mod_mod_of_dvd n (Nat.dvd_of_mod_eq_zero c.rs_dvd)
  cases dir <;> simp only [phaseAfter, h]

theorem StepperOk.stepMotor {s : State} (h : StepperOk s.cfg s.st) : StepperOk s.cfg (stepMotor s).st where
  step := Nat.mod_lt _ (by have := s.cfg.rs_ge; omega)
  motor := stepMotor_st_motor s
  phase := by
    rw [stepMotor_st_phase, nextPhase_val, h.phase, stepMotor_st_step, phaseAfter_mod_rs, phaseAfter_succ]

theorem StepperOk.resetOf (c : Config) : StepperOk c (State.resetOf c).st where
  step := (Nat.succ_pos 7).trans_le c.rs_ge
  motor := rfl
  phase := by
    change 0 = phaseAfter c.dirDelta 0
    cases c.dirDelta <;> rfl

theorem AutomatonOk.reseed {c : Config} {a : Automaton} (hprev : a.prev.length = c.vp) :
    AutomatonOk c (reseed c.vp a) :=
  ⟨seed_length c.vp, hprev, Nat.zero_le _⟩

theorem AutomatonOk.shownFrame {c : Config} {a : Automaton} (h : AutomatonOk c a) : AutomatonOk c (shownFrame c a) := by
  by_cases hspent : budgetSpent c a = true
  · rw [shownFrame_spent hspent]
    exact ⟨seed_length c.vp, h.prev, c.af_pos⟩
  · have hbudget : a.frames + 1 ≤ c.af := by
      rw [budgetSpent_iff] at hspent
      omega
    by_cases h0 : a.frames = 0
    · rw [shownFrame_first hspent h0]
      exact ⟨h.row, h.prev, hbudget⟩
    · rw [shownFrame_next hspent h0]
      exact ⟨(caNext_length _ _).trans h.row, h.row, hbudget⟩

end Sys2Proof.Machine
end

section
/-! `GoodState` is inductive (`10_state.md`): reset is good, and the parts of every agent's step keep it. -/

namespace Sys2Proof.Machine

theorem goodState_resetOf (c : Config) : GoodState (State.resetOf c) where
  buffer := ⟨c.cap_pos, Nat.zero_le _, Memory.wf_nil _ _⟩
  registers := ⟨c.aspectReset_range.1, c.aspectReset_range.2, c.dutyReset_le⟩
  stepper := .resetOf c
  display := ⟨dark_length c.vp, rfl⟩
  automaton := ⟨seed_length c.vp, dark_length c.vp, Nat.zero_le _⟩
  engine := .of_idle rfl (Nat.zero_le _)
  idle := Nat.zero_le _
  one h := by cases h

/-- Settles O51: the reset state is good for every configuration, REF among them. -/
theorem resetIsGood : Obligations.ResetIsGood :=
  ⟨goodState_resetOf Config.ref, goodState_resetOf⟩

/-! ### TICK -/

section
variable {s : State}

theorem GoodState.stepMotor (h : GoodState s) : GoodState (stepMotor s) :=
  { h with stepper := h.stepper.stepMotor }

theorem GoodState.gate (h : GoodState s) : GoodState (gate s) :=
  { h with }

/-- The column fetched is of the machine's width, and the driver shows it. -/
theorem GoodState.fetchColumn (h : GoodState s) : GoodState (fetchColumn s).2 := by
  by_cases hcount : s.db.count = 0
  · rw [fetchColumn_empty hcount]
    exact h
  · rw [fetchColumn_some hcount]
    exact { h with
      buffer := h.buffer.popped
      display := ⟨Memory.read_length h.buffer.mem, rfl⟩
      one := fun hact => (Nat.sub_le _ _).trans (h.one hact) }

/-- FRAME into an empty buffer: its row is the one column there. -/
theorem GoodState.frame (h : GoodState s) (hempty : s.db.count = 0) : GoodState (frame s) := by
  have hroom : s.db.count < s.cfg.cap := by
    rw [hempty]
    exact s.cfg.cap_pos
  have hau : AutomatonOk s.cfg (shownFrame s.cfg s.au) := h.automaton.shownFrame
  rw [frame_room hroom]
  exact { h with buffer := h.buffer.pushed hroom hau.row, automaton := hau, one := fun _ => Nat.succ_le_succ hempty.le }

theorem GoodState.startGenerator (h : GoodState s) (hempty : s.db.count = 0) : GoodState (startGenerator s) :=
  { h with
    automaton := .reseed h.automaton.prev
    idle := Nat.zero_le _
    one := fun _ => hempty.le.trans (Nat.zero_le 1) }

/-- FALLBACK runs FRAME only into an empty buffer: the generator is active, whose one column has just left, or the
fetch found none. -/
theorem GoodState.fallback {popped : Bool} (h : GoodState s) (hact : s.au.active = true → s.db.count = 0)
    (hpop : popped = false → s.db.count = 0) : GoodState (fallback popped s) := by
  rcases fallback_cases popped s with
    ⟨_, e⟩ | ⟨_, ha, e⟩ | ⟨_, _, _, e⟩ | ⟨_, _, _, hidle, e⟩ | ⟨_, _, hp, _, e⟩
  · rw [e]
    exact h
  · rw [e]
    exact h.frame (hact ha)
  · rw [e]
    exact { h with idle := Nat.zero_le _ }
  · rw [e]
    exact { h with idle := hidle.le }
  · rw [e]
    exact (h.startGenerator (hpop hp)).frame (hpop hp)

theorem GoodState.boundary (h : GoodState s) : GoodState (boundary s) := by
  refine h.fetchColumn.fallback (fun hact => ?_) (fun hpop => ?_)
  · rw [fetchColumn_au] at hact
    have hone := h.one hact
    rw [fetchColumn_count]
    omega
  · have hcount : s.db.count = 0 := by
      by_contra hne
      rw [fetchColumn_popped_iff.mpr hne] at hpop
      cases hpop
    rw [fetchColumn_count, hcount]

theorem GoodState.tick (h : GoodState s) : GoodState (tick s) := by
  by_cases hpos : (s.st.step + 1) % s.cfg.rs % csteps s = 0
  · rw [tick_boundary hpos]
    exact h.stepMotor.boundary.gate
  · rw [tick_off hpos]
    exact h.stepMotor.gate

/-! ### PE -/

/-- The DISPATCH of a command byte leaves the parser in IDLE with an empty buffer. -/
theorem GoodState.takeCommandByte (h : GoodState s) (hst : s.pe.state = .idle) (b : Byte) (rest : List Byte) :
    GoodState (takeCommandByte s b rest) :=
  { h with engine := .of_idle hst (Nat.zero_le _) }

/-- A column collected has the machine's width. -/
theorem GoodState.unpack_length (h : GoodState s) (hst : s.pe.state = .waitSpace) :
    (unpack s.pe.buf).length = s.cfg.vp := by
  rw [Machine.unpack_length, (h.engine.waitSpace hst).2, eight_mul_colBytes]

/-- Every effect of the command in progress keeps the invariant; a command that is dispatched finds the payload buffer
empty. -/
theorem GoodState.commandStep {t : State} {i : Instr} (h : GoodState s) (hi : inProgress s = i)
    (hbuf : s.pe.state = .idle → s.pe.buf = []) (hstep : CommandStep s i t) : GoodState t := by
  have hvp := s.cfg.vp_ge
  cases hstep with
  | unchanged => exact h
  | ping e => exact { h with }
  | regRead r =>
    rw [readReg_emit_frame]
    exact { h with }
  | clear imm =>
    exact { h with buffer := h.buffer.clear, one := fun _ => Nat.zero_le 1 }
  | askColumn imm hst =>
    have hpos : 0 < colBytes s.cfg.vp := Nat.div_pos hvp (by decide)
    exact { h with engine := .ask (hbuf hst) hpos (.inl ⟨op_of_inProgress hi, rfl⟩) }
  | askValue r hst =>
    exact { h with engine := .ask (hbuf hst) Nat.two_pos (.inr ⟨op_of_inProgress hi, rfl⟩) }
  | columnByte _ hst _ hneed | valueByte _ hst _ hneed =>
    exact { h with engine := h.engine.collect hst hneed _ }
  | lastColumnByte imm hst hrx hneed =>
    exact { h with engine := h.engine.arm hst hneed (op_of_inProgress hi) _ }
  | @lastValueByte r p rest hst hrx hneed =>
    have hreg : RegistersOk s.cfg (writeReg r (valueOperand (s.pe.buf ++ [p])) (s.takePayload p rest)).reg :=
      RegistersOk.writeReg (s := s.takePayload p rest) h.registers r _
    obtain ⟨reg, e⟩ := writeReg_frame r (valueOperand (s.pe.buf ++ [p])) (s.takePayload p rest)
    rw [e] at hreg ⊢
    exact { h with registers := hreg, engine := .of_idle rfl (h.engine.buf_succ hst p) }
  | push imm hst hroom =>
    rw [pushComplete_room hroom]
    exact { h with
      buffer := h.buffer.pushed hroom (h.unpack_length hst)
      automaton := { h.automaton with }
      engine := h.engine.toIdle
      idle := Nat.zero_le _
      one := fun hact => by cases hact }
  | startFlush imm hst =>
    exact { h with engine := h.engine.wait (op_of_inProgress hi) }
  | flush imm hst hempty =>
    exact { h with engine := h.engine.toIdle }

theorem GoodState.peStep {t : State} (h : GoodState s) (hstep : peStep s = .next t) : GoodState t := by
  rcases peStep_cases hstep with ⟨_, rfl⟩ | ⟨b, rest, hst, _, hexec⟩ | ⟨_, hst, hexec⟩
  · exact h
  · exact (h.takeCommandByte hst b rest).commandStep rfl (fun _ => rfl) (exec_commandStep hexec)
  · exact h.commandStep rfl (fun hidle => absurd hidle hst) (exec_commandStep hexec)

/-! ### Every agent -/

theorem GoodState.dropInput (h : GoodState s) : GoodState (dropInput s) :=
  { h with }

theorem GoodState.hostSend (h : GoodState s) (b : Byte) : GoodState (hostSend b s) :=
  { h with }

theorem GoodState.hostRead (h : GoodState s) (n : Nat) : GoodState (hostRead n s) :=
  { h with }

theorem goodState_powerUp (s : State) : GoodState (powerUp s) :=
  { goodState_resetOf s.cfg with }

end

/-- Settles O52: each agent's step keeps the invariant, and the reset input puts it in place. -/
theorem everyStepKeepsTheInvariant : Obligations.EveryStepKeepsTheInvariant := by
  intro s t h hstep
  rcases step_cases hstep with ⟨b, _, rfl⟩ | ⟨n, _, rfl⟩ | ⟨_, hpe⟩ | ⟨_, rfl⟩ | ⟨_, rfl⟩
  · exact h.dropInput.hostSend b
  · exact h.dropInput.hostRead n
  · exact h.dropInput.peStep hpe
  · exact h.dropInput.tick
  · exact goodState_powerUp _

end Sys2Proof.Machine
end

section
/-! What every step of the whole machine does: the configuration, the display side, the byte streams
(`00_scope.md` R6, `10_state.md` R38, R40, `60_exceptions.md` R272). -/

namespace Sys2Proof.Machine

/-! ### Registers 0 to 2 -/

/-- Registers 0, 1 and 2 are parameters of the configuration (R22; D7). -/
theorem readReg_of_cfg_eq {s t : State} {r : Nibble} (hr : r.toNat ≤ 2) (h : t.cfg = s.cfg) :
    (readReg r t).1 = (readReg r s).1 := by
  obtain rfl | rfl | rfl : r = 0 ∨ r = 1 ∨ r = 2 := by
    revert r
    decide
  · exact congrArg (fun c : Config => BitVec.ofNat 16 c.vp) h
  · exact congrArg (fun c : Config => BitVec.ofNat 16 c.hp) h
  · exact congrArg (fun c : Config => BitVec.ofNat 16 c.rpm) h

/-! ### A step of PE -/

section
variable {s t : State}

/-- What a PE step can change: what a command can. -/
theorem peStep_frame (h : peStep s = .next t) :
    t = { s with
      reg := t.reg, db := t.db, au := { s.au with active := t.au.active }, idleCnt := t.idleCnt, pe := t.pe, rx := t.rx
      tx := t.tx, draws := t.draws } := by
  rcases peStep_cases h with ⟨_, rfl⟩ | ⟨b, rest, _, _, hexec⟩ | ⟨_, _, hexec⟩
  · rfl
  · exact (exec_commandStep hexec).frame
  · exact (exec_commandStep hexec).frame

/-- A command never activates the generator. -/
theorem CommandStep.active_of_active {i : Instr} (h : CommandStep s i t) (hact : t.au.active = true) :
    s.au.active = true := by
  cases h with
  | regRead r => rwa [readReg_emit_frame] at hact
  | push imm hst hroom =>
    rw [pushComplete_room hroom] at hact
    cases hact
  | lastValueByte r hst hrx hneed =>
    obtain ⟨reg, e⟩ := writeReg_takePayload_frame r _ s _ _
    rwa [e] at hact
  | _ => exact hact

theorem peStep_active_of_active (h : peStep s = .next t) (hact : t.au.active = true) : s.au.active = true := by
  rcases peStep_cases h with ⟨_, rfl⟩ | ⟨b, rest, _, _, hexec⟩ | ⟨_, _, hexec⟩
  · exact hact
  · exact (exec_commandStep hexec).active_of_active hact
  · exact (exec_commandStep hexec).active_of_active hact

/-- A command takes a byte from `rx` only by COLLECT. -/
theorem CommandStep.rx_cases {i : Instr} (h : CommandStep s i t) :
    t.rx = s.rx ∨ (s.pe.state = .payload ∧ ∃ b, s.rx = b :: t.rx) := by
  cases h with
  | regRead r =>
    rw [readReg_emit_frame]
    exact .inl rfl
  | push imm hst hroom =>
    rw [pushComplete_room hroom]
    exact .inl rfl
  | columnByte _ hst hrx | lastColumnByte _ hst hrx | valueByte _ hst hrx => exact .inr ⟨hst, _, hrx⟩
  | lastValueByte r hst hrx hneed =>
    obtain ⟨reg, e⟩ := writeReg_takePayload_frame r _ s _ _
    rw [e]
    exact .inr ⟨hst, _, hrx⟩
  | _ => exact .inl rfl

/-- A command's response is at most two bytes, at the back of `tx`. -/
theorem CommandStep.tx_append {i : Instr} (h : CommandStep s i t) : ∃ bs, t.tx = s.tx ++ bs ∧ bs.length ≤ 2 := by
  cases h with
  | ping e => exact ⟨[pingByte e], rfl, one_le_two⟩
  | regRead r =>
    rw [readReg_emit_frame]
    exact ⟨halfBytes _, rfl, le_rfl⟩
  | push imm hst hroom =>
    rw [pushComplete_room hroom]
    exact ⟨[_], rfl, one_le_two⟩
  | flush imm hst hempty => exact ⟨[s.drawByte.1], rfl, one_le_two⟩
  | lastValueByte r hst hrx hneed =>
    obtain ⟨reg, e⟩ := writeReg_takePayload_frame r _ s _ _
    rw [e]
    exact ⟨[], (List.append_nil _).symm, Nat.zero_le _⟩
  | _ => exact ⟨[], (List.append_nil _).symm, Nat.zero_le _⟩

/-- A PE step takes at most the front byte: DISPATCH the command byte, COLLECT a payload byte. -/
theorem peStep_rx_cases (h : peStep s = .next t) : t.rx = s.rx ∨ ∃ b, s.rx = b :: t.rx := by
  rcases peStep_cases h with ⟨_, rfl⟩ | ⟨b, rest, hst, hrx, hexec⟩ | ⟨_, _, hexec⟩
  · exact .inl rfl
  · rcases (exec_commandStep hexec).rx_cases with hkeep | ⟨hpay, _⟩
    · rw [hkeep]
      exact .inr ⟨b, hrx⟩
    · cases hst.symm.trans hpay
  · exact (exec_commandStep hexec).rx_cases.imp_right And.right

theorem peStep_tx_append (h : peStep s = .next t) : ∃ bs, t.tx = s.tx ++ bs ∧ bs.length ≤ 2 := by
  rcases peStep_cases h with ⟨_, rfl⟩ | ⟨b, rest, _, _, hexec⟩ | ⟨_, _, hexec⟩
  · exact ⟨[], (List.append_nil _).symm, Nat.zero_le _⟩
  · exact (exec_commandStep hexec).tx_append
  · exact (exec_commandStep hexec).tx_append

end

/-! ### The statements -/

theorem step_cfg {s t : State} (h : step s = .next t) : t.cfg = s.cfg := by
  rcases step_cases h with ⟨b, _, rfl⟩ | ⟨n, _, rfl⟩ | ⟨_, hpe⟩ | ⟨_, rfl⟩ | ⟨_, rfl⟩
  · rfl
  · rfl
  · rw [peStep_frame hpe]
    rfl
  · rw [tick_cfg, dropInput_cfg]
  · rfl

/-- Settles O53: registers 0 to 2 are read from the configuration, which no step changes. -/
theorem configurationIsConstant : Obligations.ConfigurationIsConstant :=
  fun _ _ h => ⟨step_cfg h, fun _ hr => readReg_of_cfg_eq hr (step_cfg h)⟩

/-- Settles O54: the turns left are HOST's and PE's. -/
theorem onlyTicksMoveTheDisplay : Obligations.OnlyTicksMoveTheDisplay := by
  intro s t hturn hstep
  have hnot (e : Event) (he : e = .tick ∨ e = .reset) : s.inputs.head? ≠ some e := by
    rcases hturn with ⟨e', es, hin, htick, hreset⟩ | ⟨hin, _⟩
    · rw [hin, List.head?_cons, ne_eq, Option.some.injEq]
      rintro rfl
      exact he.elim htick hreset
    · rw [hin]
      exact Option.some_ne_none e ∘ Eq.symm
  rcases step_cases hstep with ⟨b, _, rfl⟩ | ⟨n, _, rfl⟩ | ⟨_, hpe⟩ | ⟨htick | ⟨hnil, hen⟩, _⟩ | ⟨hreset, _⟩
  · exact ⟨rfl, rfl, rfl, rfl, rfl, rfl, id⟩
  · exact ⟨rfl, rfl, rfl, rfl, rfl, rfl, id⟩
  · have hact := peStep_active_of_active hpe
    rw [peStep_frame hpe] at hact ⊢
    exact ⟨rfl, rfl, rfl, rfl, rfl, rfl, hact⟩
  · exact absurd htick (hnot _ (.inl rfl))
  · rcases hturn with ⟨e, es, hin, _⟩ | ⟨_, hen'⟩
    · cases hnil.symm.trans hin
    · cases hen.symm.trans hen'
  · exact absurd hreset (hnot _ (.inr rfl))

/-- Settles O56: DISPATCH or COLLECT takes the front byte, a response goes to the back. -/
theorem engineConsumesInOrder : Obligations.EngineConsumesInOrder := by
  intro s t hturn hstep
  have hpe : peStep (dropInput s) = .next t := (step_of_peTurn hturn).symm.trans hstep
  obtain ⟨bs, htx, hlen⟩ := peStep_tx_append hpe
  refine ⟨peStep_rx_cases (s := dropInput s) hpe, ⟨bs, htx.symm⟩, ?_⟩
  rw [htx, List.length_append]
  exact Nat.add_le_add_left hlen _

end Sys2Proof.Machine
end

section
/-! What every step leaves in the buffer (`41_display_buffer.md` R156, `20_memory.md` R71), agent by agent. -/

namespace Sys2Proof.Machine

section
variable {s t : State}

/-! ### PE's turn -/

/-- The DISPATCH of a CLEAR_BUFFER. -/
theorem peStep_queue_of_clear {b : Byte} {rest : List Byte} (hst : s.pe.state = .idle) (hrx : s.rx = b :: rest)
    (hb : opcodeField b = s.cfg.opc.clearBuffer) (h : peStep s = .next t) : t.queue = [] := by
  have hdec : decodeByte s.cfg.opc b = .clearBuffer (immediateField b) :=
    decodeByte_of_row s.cfg.opc_nodup (k := 3) (Opc.lt_rows_length s.cfg.opc_nodup (by decide)) hb
  rw [peStep_idle hst hrx, hdec, exec_clearBuffer, Host.Outcome.next.injEq] at h
  rw [← h]
  exact DisplayBuffer.q_clear _ _ _

theorem pushComplete_queue (hbuf : BufferOk s.cfg s.db) (hroom : s.db.count < s.cfg.cap) :
    (pushComplete s).queue = s.queue ++ [unpack s.pe.buf] := by
  rw [pushComplete_room hroom]
  exact DisplayBuffer.q_write_tail _ hroom hbuf.mem.1

/-- PUSH-COMPLETE: in WAIT_SPACE a PUSH_LINE is in progress. -/
theorem peStep_queue_of_push (hgood : GoodState s) (hst : s.pe.state = .waitSpace) (hroom : s.db.count < s.cfg.cap)
    (h : peStep s = .next t) : t.queue = s.queue ++ [unpack s.pe.buf] := by
  have hpush : inProgress s = .pushLine s.pe.imm := by
    rw [inProgress, (hgood.engine.waitSpace hst).1, instrOf_pushLine s.cfg.opc_nodup]
  rw [peStep_busy ((peEnabled_waitSpace hst).mpr hroom) (by rw [hst]; decide), hpush,
    exec_pushLine_waitSpace _ hst, Host.Outcome.next.injEq] at h
  rw [← h]
  exact pushComplete_queue hgood.buffer hroom

/-- Of the effects of a command only two change the buffer's content. -/
theorem CommandStep.queue_eq {i : Instr} (h : CommandStep s i t) (hclear : ∀ imm, i ≠ .clearBuffer imm)
    (hpush : ¬ (s.pe.state = .waitSpace ∧ s.db.count < s.cfg.cap)) : t.queue = s.queue := by
  cases h with
  | clear imm => exact absurd rfl (hclear imm)
  | push imm hst hroom => exact absurd ⟨hst, hroom⟩ hpush
  | regRead r =>
    rw [readReg_emit_frame]
    rfl
  | lastValueByte r hst hrx hneed =>
    obtain ⟨reg, e⟩ := writeReg_takePayload_frame r _ s _ _
    rw [e]
    rfl
  | _ => rfl

/-- Every other PE step: a CLEAR_BUFFER would have to be dispatched now, as it is never in progress. -/
theorem peStep_queue_eq (hgood : GoodState s)
    (hclear : ¬ (s.pe.state = .idle ∧ ∃ b rest, s.rx = b :: rest ∧ opcodeField b = s.cfg.opc.clearBuffer))
    (hpush : ¬ (s.pe.state = .waitSpace ∧ s.db.count < s.cfg.cap)) (h : peStep s = .next t) : t.queue = s.queue := by
  rcases peStep_cases h with ⟨_, rfl⟩ | ⟨b, rest, hst, hrx, hexec⟩ | ⟨_, hst, hexec⟩
  · rfl
  · exact (exec_commandStep hexec).queue_eq
      (fun imm hi => hclear ⟨hst, b, rest, hrx, op_of_inProgress hi⟩) hpush
  · exact (exec_commandStep hexec).queue_eq
      (fun imm hi => hgood.engine.op_ne_clearBuffer hst (op_of_inProgress hi)) hpush

/-! ### TICK's turn -/

theorem tick_queue_off (h : (s.st.step + 1) % s.cfg.rs % csteps s ≠ 0) : (tick s).queue = s.queue := by
  rw [tick_off h]
  rfl

theorem generates_of_empty (h : s.db.count = 0) :
    Generates false s ↔
      s.pe.state = .idle ∧ (s.au.active = true ∨ (s.db.count = 0 ∧ s.cfg.idleColumns ≤ s.idleCnt + 1)) := by
  simp [Generates, h]

theorem generates_of_nonempty (h : s.db.count ≠ 0) :
    Generates true s ↔
      s.pe.state = .idle ∧ (s.au.active = true ∨ (s.db.count = 0 ∧ s.cfg.idleColumns ≤ s.idleCnt + 1)) := by
  simp [Generates, h]

/-- A content that one column joins under a condition. -/
theorem eq_append_ite {P : Prop} [Decidable P] {q rest : List Col} {row : Col} (hyes : P → q = rest ++ [row])
    (hno : ¬ P → q = rest) : q = rest ++ if P then [row] else [] := by
  split
  · next h => exact hyes h
  · next h => rw [hno h, List.append_nil]

end

/-- Settles O55: the agents' turns one by one; TICK's by whether it is a boundary, and whether that finds a column. -/
theorem bufferIsFirstInFirstOut : Obligations.BufferIsFirstInFirstOut := by
  intro s t hgood hstep peTurn tickTurn clears pushes generates made
  refine ⟨fun hreset => ?_, fun b n hhost => ?_, fun hturn => ?_, fun hturn => ?_⟩
  · cases (step_of_head? hreset).symm.trans hstep
    rfl
  · rcases hhost with hin | hin <;>
    · cases (step_of_head? hin).symm.trans hstep
      rfl
  · have hpe : peStep (dropInput s) = .next t := (step_of_peTurn hturn).symm.trans hstep
    refine ⟨?_, fun ⟨hst, hroom⟩ => peStep_queue_of_push (s := dropInput s) hgood.dropInput hst hroom hpe,
      fun hclear hpush => peStep_queue_eq (s := dropInput s) hgood.dropInput hclear hpush hpe⟩
    rintro ⟨hst, b, rest, hrx, hb⟩
    exact peStep_queue_of_clear (s := dropInput s) hst hrx hb hpe
  · cases (step_of_tickTurn hturn).symm.trans hstep
    refine ⟨fun hoff => tick_queue_off (s := dropInput s) hoff, fun hpos => ?_⟩
    have htick : tick (dropInput s) = gate (boundary (stepMotor (dropInput s))) := tick_boundary hpos
    have hmade : made = if generates then [(boundary (stepMotor (dropInput s))).au.row] else [] := by
      simp only [made, htick, gate_au]
    rw [hmade, htick]
    refine ⟨fun hq => ?_, fun c rest hq => ?_⟩
    · have hgen : Generates false (stepMotor (dropInput s)) ↔ generates := generates_of_empty (queue_eq_nil_iff.mp hq)
      obtain ⟨hyes, hno⟩ := boundary_queue_empty (s := stepMotor (dropInput s)) hgood.buffer hq
      exact eq_append_ite (rest := []) (fun h => hyes (hgen.mpr h)) (fun h => hno (hgen.not.mpr h))
    · have hgen : Generates true (stepMotor (dropInput s)) ↔ generates :=
        generates_of_nonempty (DisplayBuffer.count_ne_zero_of_q hq)
      obtain ⟨hyes, hno⟩ := boundary_queue_cons (s := stepMotor (dropInput s)) hgood.buffer hq
      exact ⟨(boundary_shows (s := stepMotor (dropInput s)) hgood.buffer hq).1,
        eq_append_ite (fun h => hyes (hgen.mpr h)) (fun h => hno (hgen.not.mpr h))⟩

end Sys2Proof.Machine
end

section
/-! How long a command waits for the buffer (`43_scanout_renderer.md` section 6): the next column boundary is at most a
column's ticks away, and with a command in progress each boundary takes one column. -/

namespace Sys2Proof.Machine

/-- The next tick is a column boundary. -/
def AtBoundary (s : State) : Prop := (s.st.step + 1) % s.cfg.rs % csteps s = 0

theorem ticks_pe (n : Nat) (s : State) : (ticks n s).pe = s.pe := by
  induction n generalizing s with
  | zero => rfl
  | succ n ih => rw [ticks_succ, ih, tick_pe]

theorem csteps_tick (s : State) : csteps (tick s) = csteps s := by
  rw [csteps, csteps, tick_cfg, tick_reg]

theorem csteps_ticks (n : Nat) (s : State) : csteps (ticks n s) = csteps s := by
  induction n generalizing s with
  | zero => rfl
  | succ n ih => rw [ticks_succ, ih, csteps_tick]

theorem ticks_add (m n : Nat) (s : State) : ticks (m + n) s = ticks n (ticks m s) := by
  induction m generalizing s with
  | zero => rw [Nat.zero_add, ticks_zero]
  | succ m ih => rw [Nat.succ_add, ticks_succ, ticks_succ, ih]

theorem tick_step_lt (s : State) : (tick s).st.step < (tick s).cfg.rs := by
  rw [tick_step, tick_cfg]
  exact Nat.mod_lt _ (by have := s.cfg.rs_ge; omega)

theorem ticks_step_lt {s : State} (n : Nat) (h : s.st.step < s.cfg.rs) : (ticks n s).st.step < (ticks n s).cfg.rs := by
  rw [ticks_step n h, ticks_cfg]
  exact Nat.mod_lt _ (by omega)

theorem succ_mod_of_ne_zero {n m : Nat} (hm : 0 < m) (h : (n + 1) % m ≠ 0) : (n + 1) % m = n % m + 1 := by
  have hlt := Nat.mod_lt n hm
  rw [← Nat.mod_add_mod] at h ⊢
  refine Nat.mod_eq_of_lt (lt_of_le_of_ne hlt (fun hend => h ?_))
  rw [hend, Nat.mod_self]

/-- Before a boundary the position in the column goes up by one; the rotation does not end there, since its end is a
boundary. -/
theorem step_succ_of_not_atBoundary {s : State} (hstep : s.st.step < s.cfg.rs) (h : ¬ AtBoundary s) :
    (s.st.step + 1) % s.cfg.rs = s.st.step + 1 ∧ (s.st.step + 1) % csteps s = s.st.step % csteps s + 1 := by
  have hlt : s.st.step + 1 < s.cfg.rs := by
    refine lt_of_le_of_ne hstep (fun hend => h ?_)
    rw [AtBoundary, hend, Nat.mod_self, Nat.zero_mod]
  have hmod := Nat.mod_eq_of_lt hlt
  rw [AtBoundary, hmod] at h
  exact ⟨hmod, succ_mod_of_ne_zero (csteps_pos s) h⟩

/-- The next boundary comes after at most as many ticks as are left of the column, and until then the buffer stays. -/
theorem exists_ticks_atBoundary (d : Nat) {s : State} (hstep : s.st.step < s.cfg.rs)
    (hd : csteps s ≤ s.st.step % csteps s + 1 + d) :
    ∃ k, k ≤ d ∧ AtBoundary (ticks k s) ∧ (ticks k s).db = s.db := by
  induction d generalizing s with
  | zero =>
    refine ⟨0, le_rfl, ?_, rfl⟩
    by_contra h
    have hpos := (step_succ_of_not_atBoundary hstep h).2
    have hlt := Nat.mod_lt (s.st.step + 1) (csteps_pos s)
    omega
  | succ d ih =>
    by_cases h : AtBoundary s
    · exact ⟨0, Nat.zero_le _, h, rfl⟩
    · obtain ⟨hmod, hpos⟩ := step_succ_of_not_atBoundary hstep h
      have hd' : csteps (tick s) ≤ (tick s).st.step % csteps (tick s) + 1 + d := by
        rw [csteps_tick, tick_step, hmod, hpos]
        omega
      obtain ⟨k, hk, hbound, hdb⟩ := ih (tick_step_lt s) hd'
      exact ⟨k + 1, Nat.succ_le_succ hk, hbound, hdb.trans (tick_off_hold h).1⟩

/-- With a command in progress a boundary takes one column and adds none. -/
theorem tick_count_of_busy {s : State} (hst : s.pe.state ≠ .idle) (h : AtBoundary s) :
    (tick s).db.count = s.db.count - 1 := by
  rw [tick_boundary h, boundary_busy (s := stepMotor s) hst]
  exact fetchColumn_count (stepMotor s)

/-- With a command in progress one column leaves within a column's ticks. -/
theorem exists_ticks_pop {s : State} (hstep : s.st.step < s.cfg.rs) (hst : s.pe.state ≠ .idle) :
    ∃ k, k ≤ csteps s ∧ (ticks k s).db.count = s.db.count - 1 := by
  have hpos := csteps_pos s
  obtain ⟨k, hk, hbound, hdb⟩ := exists_ticks_atBoundary (csteps s - 1) hstep (by omega)
  refine ⟨k + 1, by omega, ?_⟩
  have hbusy : (ticks k s).pe.state ≠ .idle := by rwa [ticks_pe]
  rw [ticks_add, ← hdb]
  exact tick_count_of_busy hbusy hbound

/-- Column by column, the buffer runs empty. -/
theorem exists_ticks_empty (n : Nat) {s : State} (hstep : s.st.step < s.cfg.rs) (hst : s.pe.state ≠ .idle)
    (hn : s.db.count = n) : ∃ k, k ≤ n * csteps s ∧ (ticks k s).db.count = 0 := by
  induction n generalizing s with
  | zero => exact ⟨0, Nat.zero_le _, hn⟩
  | succ n ih =>
    obtain ⟨j, hj, hpop⟩ := exists_ticks_pop hstep hst
    have hbusy : (ticks j s).pe.state ≠ .idle := by rwa [ticks_pe]
    obtain ⟨k, hk, hempty⟩ := ih (ticks_step_lt j hstep) hbusy (by rw [hpop, hn, Nat.add_sub_cancel])
    rw [csteps_ticks] at hk
    refine ⟨j + k, ?_, by rw [ticks_add, hempty]⟩
    rw [Nat.succ_mul]
    omega

/-- Settles O58: with FLUSH_BUFFER in progress the buffer only loses columns, one for each boundary. -/
theorem flushEndsWithinItsColumns : Obligations.FlushEndsWithinItsColumns := by
  intro s hgood hst
  obtain ⟨k, hk, hempty⟩ := exists_ticks_empty s.db.count hgood.stepper.step (by rw [hst]; decide) rfl
  have hst' : (ticks k s).pe.state = .waitEmpty := by rw [ticks_pe, hst]
  exact ⟨k, hk, hempty, hst', (peEnabled_waitEmpty hst').mpr hempty⟩

/-- Settles O59: the buffer holds at most CAP columns, one fewer after the pop. -/
theorem pushEndsWithinOneColumn : Obligations.PushEndsWithinOneColumn := by
  intro s hgood hst
  have hcap := s.cfg.cap_pos
  have hcount := hgood.buffer.count
  obtain ⟨k, hk, hpop⟩ := exists_ticks_pop hgood.stepper.step (by rw [hst]; decide)
  have hroom : (ticks k s).db.count < s.cfg.cap := by omega
  have hst' : (ticks k s).pe.state = .waitSpace := by rw [ticks_pe, hst]
  refine ⟨k, hk, hroom, ticks_pe k s, (peEnabled_waitSpace hst').mpr ?_⟩
  rwa [ticks_cfg]

end Sys2Proof.Machine
end
